-- ==== Sys2Proof/Word.lean ====
section
/-! DEFINITION. The word types of the block (`00_scope.md` R13): bytes, the 10-bit EVT word and the 11-bit
RXDEC word. Their meaning is in `Decode.lean`. -/

namespace Sys2Proof

/-- A byte: an unsigned 8-bit value (`00_scope.md` R13). -/
abbrev Byte := BitVec 8

/-- The EVT word `evt[9:0]` of an input event (`30_encoding.md` R63). -/
abbrev EvtWord := BitVec 10

/-- The RXDEC word `{rx_state[2:0], b[7:0]}` (`30_encoding.md` R65). -/
abbrev RxWord := BitVec 11

/-- One pixel: three bytes in R, G, B order (`00_scope.md` R12, `10_state.md` R26). -/
structure Rgb where
  r : Byte
  g : Byte
  b : Byte
  deriving DecidableEq, Repr

/-- Black is `(0, 0, 0)` (`10_state.md` R26). -/
def Rgb.black : Rgb := ⟨0, 0, 0⟩

end Sys2Proof
end

