-- ==== Sys2Proof/Syntax.lean ====
section
/-! DEFINITION. The syntax: one constructor of `Instr` for each row of `spec/opcode_table.json`, the receiver
rows as a type of their own, and the forms in which an instruction reaches the block. -/

namespace Sys2Proof

/-- A transition of the Frame Receiver, one for each row of the RXDEC table (`30_encoding.md` R65), in the
table's order. The operand is the byte that was fed; the two HIT rows fix it. -/
inductive RxRow where
  | sync1Hit
  | sync1Miss (b : Byte)
  | sync2Hit
  | sync2Miss (b : Byte)
  | frameId (b : Byte)
  | lenLow (b : Byte)
  | lenHigh (b : Byte)
  | payload (b : Byte)
  | crc (b : Byte)
  | illegal (b : Byte)
  deriving DecidableEq, Repr

/-- The rows of `spec/opcode_table.json`: four EVT kinds, ten RXDEC rows, two combinational ports. -/
inductive Instr where
  /-- FEED: present the byte `b` to the receiver (`41_receiver.md` R90). -/
  | feed (b : Byte)
  /-- TICK: evaluate the Watchdog (`43_watchdog.md` R140). The data bits are ignored (`30_encoding.md` R64). -/
  | tick (data : Byte)
  /-- RESET (`70_reset_and_hazards.md` R180). The data bits are ignored (`30_encoding.md` R64). -/
  | reset (data : Byte)
  /-- EVT_RESERVED: `kind = 11` spells no event (`30_encoding.md` R64). -/
  | evtReserved (data : Byte)
  /-- RX_SYNC1_HIT (`41_receiver.md` R91). -/
  | rxSync1Hit
  /-- RX_SYNC1_MISS (`41_receiver.md` R92). -/
  | rxSync1Miss (b : Byte)
  /-- RX_SYNC2_HIT (`41_receiver.md` R93). -/
  | rxSync2Hit
  /-- RX_SYNC2_MISS (`41_receiver.md` R94). -/
  | rxSync2Miss (b : Byte)
  /-- RX_FRAME_ID (`41_receiver.md` R95). -/
  | rxFrameId (b : Byte)
  /-- RX_LEN_LOW (`41_receiver.md` R96). -/
  | rxLenLow (b : Byte)
  /-- RX_LEN_HIGH (`41_receiver.md` R97). -/
  | rxLenHigh (b : Byte)
  /-- RX_PAYLOAD (`41_receiver.md` R98). -/
  | rxPayload (b : Byte)
  /-- RX_CRC (`41_receiver.md` R99). -/
  | rxCrc (b : Byte)
  /-- RX_ILLEGAL_STATE (`41_receiver.md` R100). -/
  | rxIllegalState (b : Byte)
  /-- CRC_STEP: the CRC step port (`40_crc.md` R82), operands as in `30_encoding.md` R73. -/
  | crcStep (crcIn crcData : Byte)
  /-- SERP_MAP: the mapper port (`42_applier.md` R121); its operands are unbounded naturals, as
  `30_encoding.md` R73 allows (log 22). -/
  | serpMap (mapX mapY : Nat)
  deriving DecidableEq, Repr

/-- The encoded form of an instruction: an EVT word, an RXDEC word, or the operands of a combinational port,
which has no selection bits (`30_encoding.md` R63, R65, R73). -/
inductive Code where
  | evt (w : EvtWord)
  | rxdec (w : RxWord)
  | crcPort (crcIn crcData : Byte)
  | mapPort (mapX mapY : Nat)
  deriving DecidableEq, Repr

end Sys2Proof
end

