-- ==== Sys2Proof/WellFormed.lean ====
section
/-! DEFINITION. Which terms of `Instr` stand for a row's words. The rows of the RXDEC table are tried in
order (`30_encoding.md` R65), so the two MISS rows stand for every byte but the one their HIT row takes. -/

namespace Sys2Proof

/-- A well-formed instruction: the operand is one the row's words can carry. -/
def Instr.wellFormed : Instr → Bool
  | .feed _ => true
  | .tick _ => true
  | .reset _ => true
  | .evtReserved _ => true
  | .rxSync1Hit => true
  | .rxSync1Miss b => b != 0xAA
  | .rxSync2Hit => true
  | .rxSync2Miss b => b != 0x55
  | .rxFrameId _ => true
  | .rxLenLow _ => true
  | .rxLenHigh _ => true
  | .rxPayload _ => true
  | .rxCrc _ => true
  | .rxIllegalState _ => true
  | .crcStep _ _ => true
  | .serpMap _ _ => true

end Sys2Proof
end

