-- ==== Sys2Proof/Decode.lean ====
section
/-! DEFINITION. The two decoders of the block (`30_encoding.md` R64, R65), the encoder written from the same
tables, and the reading of a word as `spec/opcode_table.json` numbers its bits. -/

namespace Sys2Proof

/-- `SYNC1` (`00_scope.md` R12). -/
def sync1 : Byte := 0xAA

/-- `SYNC2` (`00_scope.md` R12). -/
def sync2 : Byte := 0x55

/-- `data[7:0]` of an EVT word (`30_encoding.md` R63). -/
def evtData (w : EvtWord) : Byte := w.extractLsb' 0 8

/-- EVT decode: `kind` alone selects the event, so every mask is `0x300` (`30_encoding.md` R64). Total:
`kind = 11` is the row EVT_RESERVED. -/
def decodeEvt (w : EvtWord) : Instr :=
  if w &&& 0x300 = 0x000 then .feed (evtData w)
  else if w &&& 0x300 = 0x100 then .tick (evtData w)
  else if w &&& 0x300 = 0x200 then .reset (evtData w)
  else .evtReserved (evtData w)

/-- The RXDEC word of a byte fed in a receiver state: `{rx_state[2:0], b[7:0]}` (`30_encoding.md` R65). -/
def rxWord (rxState : BitVec 3) (b : Byte) : RxWord := rxState ++ b

/-- `b[7:0]` of an RXDEC word. -/
def rxByte (k : RxWord) : Byte := k.extractLsb' 0 8

/-- `rx_state[2:0]` of an RXDEC word. -/
def rxCode (k : RxWord) : BitVec 3 := k.extractLsb' 8 3

/-- RXDEC decode: the rows are tried in order and the first that matches is selected
(`30_encoding.md` R65, match and mask columns). The last row's own match is what remains. -/
def decodeRxdec (k : RxWord) : RxRow :=
  if k &&& 0x7FF = 0x0AA then .sync1Hit
  else if k &&& 0x700 = 0x000 then .sync1Miss (rxByte k)
  else if k &&& 0x7FF = 0x155 then .sync2Hit
  else if k &&& 0x700 = 0x100 then .sync2Miss (rxByte k)
  else if k &&& 0x700 = 0x200 then .frameId (rxByte k)
  else if k &&& 0x700 = 0x300 then .lenLow (rxByte k)
  else if k &&& 0x700 = 0x400 then .lenHigh (rxByte k)
  else if k &&& 0x700 = 0x500 then .payload (rxByte k)
  else if k &&& 0x700 = 0x600 then .crc (rxByte k)
  else .illegal (rxByte k)

/-- The opcode-table row of a receiver transition. -/
def RxRow.instr : RxRow → Instr
  | .sync1Hit => .rxSync1Hit
  | .sync1Miss b => .rxSync1Miss b
  | .sync2Hit => .rxSync2Hit
  | .sync2Miss b => .rxSync2Miss b
  | .frameId b => .rxFrameId b
  | .lenLow b => .rxLenLow b
  | .lenHigh b => .rxLenHigh b
  | .payload b => .rxPayload b
  | .crc b => .rxCrc b
  | .illegal b => .rxIllegalState b

/-- The decoder: total on every encoded form. -/
def decode : Code → Instr
  | .evt w => decodeEvt w
  | .rxdec k => (decodeRxdec k).instr
  | .crcPort c d => .crcStep c d
  | .mapPort x y => .serpMap x y

/-- An EVT word `{kind, data}` (`30_encoding.md` R63). -/
def evtWord (kind : BitVec 2) (data : Byte) : EvtWord := kind ++ data

/-- The encoder: the word of an instruction, from the `kind` column of `30_encoding.md` R63 and the state
codes of R65. -/
def encode : Instr → Code
  | .feed b => .evt (evtWord 0 b)
  | .tick d => .evt (evtWord 1 d)
  | .reset d => .evt (evtWord 2 d)
  | .evtReserved d => .evt (evtWord 3 d)
  | .rxSync1Hit => .rxdec (rxWord 0 sync1)
  | .rxSync1Miss b => .rxdec (rxWord 0 b)
  | .rxSync2Hit => .rxdec (rxWord 1 sync2)
  | .rxSync2Miss b => .rxdec (rxWord 1 b)
  | .rxFrameId b => .rxdec (rxWord 2 b)
  | .rxLenLow b => .rxdec (rxWord 3 b)
  | .rxLenHigh b => .rxdec (rxWord 4 b)
  | .rxPayload b => .rxdec (rxWord 5 b)
  | .rxCrc b => .rxdec (rxWord 6 b)
  | .rxIllegalState b => .rxdec (rxWord 7 b)
  | .crcStep c d => .crcPort c d
  | .serpMap x y => .mapPort x y

/-- The encoded form that a number of `nbits` table bits stands for. A word of 10 bits is an EVT word, one of
11 bits an RXDEC word, and a row of no bits is a combinational port with its operands 0. In whole bytes both
kinds of word are 16 bits wide and the numbers below `0x400` spell an EVT word and an RXDEC word alike: those
are read as the EVT word, the one the event port carries (log 12). `none` for a number that is no word. -/
def tableCode (nbits w : Nat) : Option Code :=
  if nbits = 0 then
    if w = 0 then some (.crcPort 0 0) else none
  else if nbits = 11 then
    if w < 0x800 then some (.rxdec (BitVec.ofNat 11 w)) else none
  else if w < 0x400 then some (.evt (BitVec.ofNat 10 w))
  else if nbits = 10 then none
  else if w < 0x800 then some (.rxdec (BitVec.ofNat 11 w))
  else none

/-- The instruction the decoder reads from a word numbered as `spec/opcode_table.json` numbers it. -/
def decodeTableWord (nbits w : Nat) : Option Instr := (tableCode nbits w).map decode

end Sys2Proof
end

