-- ==== Sys2Proof/Config.lean ====
section
/-! DEFINITION. The configuration of the block (`00_scope.md` R7 to R11) and the free values: what a register
or a byte of `pay_buf` holds where the spec leaves it unspecified. What is computed FROM the configuration
(`L`, its legality) is in `Machine/Ops.lean`. -/

namespace Sys2Proof

/-- The configuration `(W, H, T, TW, BRIGHTNESS, CURRENT_LIMIT)` (`00_scope.md` R19). The spec leaves every
one of them an open parameter, so a claim quantifies over all of them (`92_eei_decisions.md` D12). -/
structure Config where
  /-- `W`, the grid width in cells (R7). -/
  w : Nat
  /-- `H`, the grid height in cells (R7). -/
  h : Nat
  /-- `T`, the watchdog threshold in milliseconds (R9). -/
  t : Nat
  /-- `TW`, the width in bits of `now_ms` and `last_ok_ms` (R10). -/
  tw : Nat
  /-- `BRIGHTNESS`, passed through to the sink and never read (R11). The spec gives no width (log 18). -/
  brightness : Nat
  /-- `CURRENT_LIMIT`, passed through to the sink and never read (R11). The spec gives no width (log 18). -/
  currentLimit : Nat
  deriving DecidableEq, Repr

/-- The configuration of `State.reset`. The grid and the threshold are the only concrete ones the source
gives (R7, R9) and `TW` is the spec's default (R10). DESIGN CHOICE, unsafe: a statement must not rest on it
(log 1). -/
def Config.default : Config :=
  { w := 16, h := 16, t := 600, tw := 32, brightness := 0, currentLimit := 0 }

/-- What `frame_id` holds after the RESET event of the given number: unspecified (`10_state.md` R22).
A free value (log 6). -/
opaque Config.freeFrameId : Nat → BitVec 8

/-- What `declared_length` holds after the RESET event of the given number: unspecified
(`10_state.md` R23). A free value (log 6). -/
opaque Config.freeDeclaredLength : Nat → BitVec 16

/-- What the byte of `pay_buf` at the given address holds after the RESET event of the given number, until a
payload byte is stored there: unspecified (`10_state.md` R25). A free value (log 7). -/
opaque Config.freePayByte : Nat → Nat → BitVec 8

end Sys2Proof
end

