-- ==== Sys2Proof/Machine/State.lean ====
section
/-! DEFINITION. The state of the block, the reasons a step can stop, and the state after reset. Everything
that acts on a state is in `Machine/Ops.lean` and the files after it. -/

namespace Sys2Proof.Machine

/-- The two private storage spaces of the block (`20_memory.md` R40). -/
inductive Space where
  /-- PAY, the payload accumulation buffer (`20_memory.md` R41). -/
  | pay
  /-- PIX, the pixel buffer; byte `3*s + c` is channel `c` of slot `s` (`20_memory.md` R42, R45). -/
  | pix
  deriving DecidableEq, Repr

/-- Why a frame was rejected (`60_exceptions.md` R161). -/
inductive Cause where
  /-- The declared length is not the expected one: code 0. -/
  | length
  /-- The checksum does not match: code 1. -/
  | crc
  deriving DecidableEq, Repr

/-- The result of an event (`10_state.md` R31). TICK and RESET drive Idle. The payload and the cause exist
only where the spec gives them a meaning (log 20). -/
inductive Result where
  | idle
  | frameReady (payload : List Byte)
  | rejected (cause : Cause)
  deriving DecidableEq, Repr

/-- One flush transaction to the output sink: the snapshot of `pix_buf`, slot 0 first, with the two sink
settings (`10_state.md` R32). -/
structure Flush where
  snapshot : List Rgb
  brightness : Nat
  currentLimit : Nat
  deriving DecidableEq, Repr

/-- What the host can do to the block (`10_state.md` R33, R34, `70_reset_and_hazards.md` R183). -/
inductive Input where
  /-- An EVT word on the event port, with the value of the millisecond counter (`10_state.md` R34). -/
  | event (w : EvtWord) (nowMs : Nat)
  /-- The operands of the CRC step port (`30_encoding.md` R73). -/
  | crcPort (crcIn crcData : Byte)
  /-- The operands of the mapper port (`30_encoding.md` R73). -/
  | mapPort (mapX mapY : Nat)
  /-- The host fixes the configuration (`70_reset_and_hazards.md` R183 step 1; log 11). -/
  | configure (c : Config)
  deriving DecidableEq, Repr

/-- `declared_length`, a 16-bit register held as its two bytes, since R96 and R97 of `41_receiver.md` each
write one of them (`10_state.md` R23; log 19). -/
structure LenReg where
  /-- bits `[15:8]` -/
  hi : Byte
  /-- bits `[7:0]` -/
  lo : Byte
  deriving DecidableEq, Repr

/-- The state of the block. The first seven fields after `cfg` are the spec's state, all of it
(`10_state.md` R20); the configuration is a parameter of the step relation, carried here because a step takes
nothing but a state; the rest are the block's inputs and outputs and two fields of the model's own. -/
structure State where
  /-- The configuration (`00_scope.md` R7 to R11); no step changes it while the block runs (R186; log 1). -/
  cfg : Config
  /-- `rx_state`, 3 bits (`10_state.md` R21). -/
  rxState : BitVec 3
  /-- `frame_id`, 8 bits (`10_state.md` R22). -/
  frameId : Byte
  /-- `declared_length`, 16 bits (`10_state.md` R23). -/
  declaredLength : LenReg
  /-- `bytes_received`, 16 bits (`10_state.md` R24). -/
  bytesReceived : BitVec 16
  /-- `pay_buf`: the bytes of PAY stored since the last RESET (`10_state.md` R25, `20_memory.md` R41). -/
  pay : List Host.Cell
  /-- `pix_buf`: the bytes of PIX that are not zero (`10_state.md` R26, `20_memory.md` R42). -/
  pix : List Host.Cell
  /-- `last_ok_ms`, `TW` bits: below `2^TW` (`10_state.md` R27; log 15). -/
  lastOkMs : Nat
  /-- Whether RESET has been performed since power-on (`70_reset_and_hazards.md` R181; log 9). -/
  started : Bool
  /-- How many RESET events have been performed: the argument of the free values (log 6). -/
  epoch : Nat
  /-- The value of the millisecond counter presented with the event being performed (`10_state.md` R34). -/
  nowMs : Nat
  /-- The inputs the host will present, in order (`10_state.md` R34; log 2). -/
  pending : List Input
  /-- The results of the events performed, newest first (`10_state.md` R31; log 3). -/
  results : List Result
  /-- The flush transactions delivered to the sink, newest first (`10_state.md` R32; log 3). -/
  flushes : List Flush
  /-- `crc_out` (`10_state.md` R33; log 14). -/
  crcOut : Byte
  /-- `map_slot` (`10_state.md` R33; log 14). -/
  mapSlot : Nat
  deriving DecidableEq, Repr

/-- Why the machine stops with a fault (`60_exceptions.md` R168). No admitted run reaches one. -/
inductive Fault where
  /-- `fault(illegal receiver state)`: raised by RX_ILLEGAL_STATE, and by FEED when `rx_state` is 7
  (`41_receiver.md` R100). Safe: nothing is claimed of the state after it. -/
  | illegalReceiverState
  /-- `fault(out-of-range buffer index)`: raised by an access to PAY or PIX outside its range
  (`20_memory.md` R43). Safe: nothing is claimed of the state after it. -/
  | outOfRangeBufferIndex
  deriving DecidableEq, Repr

/-- Why the model gives no step (`60_exceptions.md` R169). -/
inductive Refusal where
  /-- An instruction without a meaning; no arm of `exec` answers it. Safe. -/
  | notModelled (mnemonic : String)
  /-- EVT `kind = 11`: raised by EVT_RESERVED (`30_encoding.md` R64). Safe: it spells no event. -/
  | reservedEvent
  /-- Raised by FEED and TICK before the first RESET (`70_reset_and_hazards.md` R181). Safe: the state there
  is undefined. -/
  | eventBeforeReset
  /-- Raised by SERP_MAP outside the grid (`42_applier.md` R121). Safe: no value exists there. -/
  | mapperInputOutOfRange
  /-- Raised by a step under a configuration the spec does not admit (`00_scope.md` R7, R9; log 10). Safe:
  the block is not specified there. -/
  | illegalConfiguration
  /-- Raised by `Input.configure` with another configuration once the block runs
  (`70_reset_and_hazards.md` R186; log 11). Safe: the spec refuses such a run. -/
  | configurationChange
  deriving DecidableEq, Repr

/-- What a step or a meaning answers. -/
abbrev Out := Host.Outcome State Fault Refusal

/-- The block just after RESET at `now_ms = 0` (`10_state.md` section 7): receiver hunting for SYNC1, black
pixel buffer, nothing stored in PAY. `frame_id` and `declared_length` are unspecified by the spec and zero
here (log 4); the configuration is `Config.default` (log 1). -/
def State.reset : State :=
  { cfg := Config.default
    rxState := 0
    frameId := 0
    declaredLength := ⟨0, 0⟩
    bytesReceived := 0
    pay := []
    pix := []
    lastOkMs := 0
    started := true
    epoch := 0
    nowMs := 0
    pending := []
    results := []
    flushes := []
    crcOut := 0
    mapSlot := 0 }

end Sys2Proof.Machine
end

