-- ==== Sys2Proof/Machine/Ops.lean ====
section
/-! DEFINITION. The named operations over configuration, registers, storage and outputs. The block has no
trap: the one operation in the place of "taking an exception" is `reject`, and there is no return from it
(`60_exceptions.md` R165, R166). -/

namespace Sys2Proof.Machine

/-! ### Configuration and time -/

/-- `L = W*H*3`, the expected payload length and the size of PAY (`00_scope.md` R8). -/
def payloadLen (c : Config) : Nat := c.w * c.h * 3

/-- The number of slots of PIX, `W*H` (`20_memory.md` R42). -/
def slotCount (c : Config) : Nat := c.w * c.h

/-- A configuration the spec admits: `W >= 1`, `H >= 1`, `W*H*3 <= 65535` (`00_scope.md` R7) and `T` below
`2^TW` (`00_scope.md` R9; log 10). -/
def legalConfig (c : Config) : Bool :=
  decide (1 ≤ c.w) && decide (1 ≤ c.h) && decide (payloadLen c ≤ 65535) && decide (c.t < 2 ^ c.tw)

/-- `now_ms[TW-1:0]` as sampled at the event (`10_state.md` R34). -/
def sampledNow (s : State) : Nat := s.nowMs % 2 ^ s.cfg.tw

/-- `elapsed = (now - last_ok_ms) mod 2^TW`, unsigned (`43_watchdog.md` R140, R148). -/
def elapsed (tw now last : Nat) : Nat := (((now : Int) - (last : Int)) % ((2 ^ tw : Nat) : Int)).toNat

/-! ### Storage: one canonical form for both spaces -/

/-- What an address of a space that is not listed reads as, after the given number of RESET events: 0x00 in
PIX, its reset contents (`10_state.md` R26; log 8); a free byte in PAY, whose contents the spec leaves
unspecified (`10_state.md` R25; log 7). -/
def unlisted (epoch : Nat) : Space → Nat → Byte
  | .pix, _ => 0
  | .pay, a => Config.freePayByte epoch a

/-- Whether a byte is known to be what every unlisted address of the space reads as. -/
def isUnlistedByte : Space → Byte → Bool
  | .pix, v => v == 0
  | .pay, _ => false

/-- The byte listed at an address. -/
def lookup : List Host.Cell → Nat → Option Byte
  | [], _ => none
  | (k, v) :: m, a => if k = a then some v else lookup m a

/-- The memory with nothing listed at an address. -/
def eraseCell : List Host.Cell → Nat → List Host.Cell
  | [], _ => []
  | (k, v) :: m, a => if k = a then eraseCell m a else (k, v) :: eraseCell m a

/-- The memory with a byte listed at an address, addresses rising. -/
def insertCell : List Host.Cell → Nat → Byte → List Host.Cell
  | [], a, v => [(a, v)]
  | (k, u) :: m, a, v =>
    if a < k then (a, v) :: (k, u) :: m
    else if a = k then (a, v) :: m
    else (k, u) :: insertCell m a v

/-- Store one byte, keeping the canonical form of the space. -/
def storeByte (sp : Space) (m : List Host.Cell) (a : Nat) (v : Byte) : List Host.Cell :=
  if isUnlistedByte sp v then eraseCell m a else insertCell m a v

/-- The canonical form of a memory of a space: addresses strictly rising and below the given bound, and no
entry that an unlisted address is known to read as. -/
abbrev Memory.wf (sp : Space) (bound : Nat) (m : List Host.Cell) : Prop :=
  m.Pairwise (fun x y => x.1 < y.1) ∧ ∀ c ∈ m, c.1 < bound ∧ isUnlistedByte sp c.2 = false

/-- The cells of a space. -/
def cellsOf (s : State) : Space → List Host.Cell
  | .pay => s.pay
  | .pix => s.pix

/-- One byte of a space, as every read sees it (`20_memory.md` R51). -/
def readByte (s : State) (sp : Space) (a : Nat) : Byte :=
  match lookup (cellsOf s sp) a with
  | some v => v
  | none => unlisted s.epoch sp a

/-- `MemRead(PIX, slot, 3)` (`00_scope.md` R15). -/
def readPixel (s : State) (slot : Nat) : Rgb :=
  ⟨readByte s .pix (3 * slot), readByte s .pix (3 * slot + 1), readByte s .pix (3 * slot + 2)⟩

/-- `pay_buf[0..L)` (`00_scope.md` R17, `10_state.md` R25). -/
def payload (s : State) : List Byte := (List.range (payloadLen s.cfg)).map (readByte s .pay)

/-- The three stores of one triplet, channels in R, G, B order (`20_memory.md` R45). -/
def storePixel (m : List Host.Cell) (slot : Nat) (px : Rgb) : List Host.Cell :=
  storeByte .pix (storeByte .pix (storeByte .pix m (3 * slot) px.r) (3 * slot + 1) px.g) (3 * slot + 2) px.b

/-! ### Register writes -/

/-- `rx_state <- code` (`10_state.md` R21). -/
def setRxState (code : BitVec 3) (s : State) : State := { s with rxState := code }

/-- `frame_id <- v` (`10_state.md` R22). -/
def setFrameId (v : Byte) (s : State) : State := { s with frameId := v }

/-- `declared_length <- d` (`10_state.md` R23). -/
def setDeclaredLength (d : LenReg) (s : State) : State := { s with declaredLength := d }

/-- `bytes_received <- n` (`10_state.md` R24). -/
def setBytesReceived (n : BitVec 16) (s : State) : State := { s with bytesReceived := n }

/-- The cells of PAY. -/
def setPay (m : List Host.Cell) (s : State) : State := { s with pay := m }

/-- The cells of PIX. -/
def setPix (m : List Host.Cell) (s : State) : State := { s with pix := m }

/-- `last_ok_ms <- now`: a `TW`-bit register takes the `TW` bits sampled with the event (`10_state.md` R27). -/
def stampLastOk (s : State) : State := { s with lastOkMs := sampledNow s }

/-- What RESET leaves in `frame_id`, `declared_length` and `pay_buf`: unspecified values, free ones that no
earlier RESET gave (`70_reset_and_hazards.md` R180; logs 6 and 7). -/
def forgetUnspecified (s : State) : State :=
  { s with
    epoch := s.epoch + 1
    frameId := Config.freeFrameId (s.epoch + 1)
    declaredLength :=
      ⟨(Config.freeDeclaredLength (s.epoch + 1)).extractLsb' 8 8,
       (Config.freeDeclaredLength (s.epoch + 1)).extractLsb' 0 8⟩
    pay := [] }

/-- RESET has been performed (`70_reset_and_hazards.md` R181). -/
def markStarted (s : State) : State := { s with started := true }

/-! ### Memory writes with their range check -/

/-- `MemWrite(PAY, i, 1, v)` (`00_scope.md` R15, `20_memory.md` R41, R43). -/
def writePay (i : Nat) (v : Byte) (s : State) : Except Fault State :=
  if i < payloadLen s.cfg then .ok (setPay (storeByte .pay s.pay i v) s) else .error .outOfRangeBufferIndex

/-- `MemWrite(PIX, slot, 3, px)` (`00_scope.md` R15, `20_memory.md` R42, R43). -/
def writePixel (slot : Nat) (px : Rgb) (s : State) : Except Fault State :=
  if slot < slotCount s.cfg then .ok (setPix (storePixel s.pix slot px) s) else .error .outOfRangeBufferIndex

/-- `MemWrite(PIX, slot, 3, (0, 0, 0))` for each slot of a list, in order. -/
def blackenSlots : List Nat → State → Except Fault State
  | [], s => .ok s
  | slot :: rest, s =>
    match writePixel slot Rgb.black s with
    | .error f => .error f
    | .ok s' => blackenSlots rest s'

/-- The loop `for s in 0..W*H-1: MemWrite(PIX, s, 3, (0, 0, 0))` of the blackout and of RESET
(`43_watchdog.md` R141, `70_reset_and_hazards.md` R180). -/
def blackenAll (s : State) : Except Fault State := blackenSlots (List.range (slotCount s.cfg)) s

/-! ### Outputs -/

/-- `emit r`: the result of the event (`00_scope.md` R16, `10_state.md` R31). -/
def emit (r : Result) (s : State) : State := { s with results := r :: s.results }

/-- The whole of `pix_buf`, slot 0 first (`10_state.md` R32, `20_memory.md` R55). -/
def pixels (s : State) : List Rgb := (List.range (slotCount s.cfg)).map (readPixel s)

/-- The transaction a flush of the present state delivers (`10_state.md` R32). -/
def flushOf (s : State) : Flush := ⟨pixels s, s.cfg.brightness, s.cfg.currentLimit⟩

/-- `Flush(pix_buf)`: one transaction to the output sink (`10_state.md` R32). -/
def flush (s : State) : State := { s with flushes := flushOf s :: s.flushes }

/-- `crc_out` takes a value (`40_crc.md` R82). -/
def driveCrcOut (v : Byte) (s : State) : State := { s with crcOut := v }

/-- `map_slot` takes a value (`42_applier.md` R121). -/
def driveMapSlot (n : Nat) (s : State) : State := { s with mapSlot := n }

/-! ### Rejection: the block's only "exception" -/

/-- `raise Reject(cause)`: emit the rejection and go back to hunting for SYNC1. It saves nothing, switches no
mode and transfers control nowhere (`60_exceptions.md` R161, R165). -/
def reject (cause : Cause) (s : State) : State := setRxState 0 (emit (.rejected cause) s)

/-! ### The event port -/

/-- The block before its first RESET, under a configuration (`70_reset_and_hazards.md` R181). Its state is
undefined: FEED and TICK are refused, and RESET rewrites what they read (log 9). -/
def State.powerOn (c : Config) : State := { State.reset with cfg := c, started := false }

/-- Perform an event only after the first RESET (`70_reset_and_hazards.md` R181). -/
def afterReset (s : State) (event : Out) : Out := if s.started then event else .refused .eventBeforeReset

/-- The next state, or the fault of a memory access. -/
def outcome : Except Fault State → Out
  | .ok s => .next s
  | .error f => .fault f

/-- The host fixes the configuration (`70_reset_and_hazards.md` R183). Before the first RESET it is taken,
and the storage takes its size with nothing defined in it; once the block runs, a change is refused (R186) and
the same configuration again changes nothing (log 11). -/
def configure (c : Config) (s : State) : Out :=
  if legalConfig c = false then .refused .illegalConfiguration
  else if s.cfg = c then .next s
  else if s.started then .refused .configurationChange
  else .next { State.powerOn c with
    epoch := s.epoch, nowMs := s.nowMs, pending := s.pending, results := s.results, flushes := s.flushes,
    crcOut := s.crcOut, mapSlot := s.mapSlot }

/-- Perform an input only under a configuration the spec admits (`00_scope.md` R7, `60_exceptions.md` R169). -/
def underLegalConfig (s : State) (event : Out) : Out :=
  if legalConfig s.cfg then event else .refused .illegalConfiguration

/-- What the next input asks for: nothing, a configuration, or an instruction, each with the state after the
input is taken. -/
inductive Fetched where
  | nothing
  | configuration (c : Config) (s : State)
  | instruction (i : Instr) (s : State)
  deriving DecidableEq, Repr

/-- Take the first pending input: an event brings its `now_ms` with it and its word is decoded
(`10_state.md` R34, `30_encoding.md` R64); a port brings its operands (`30_encoding.md` R73). -/
def fetch (s : State) : Fetched :=
  match s.pending with
  | [] => .nothing
  | .event w now :: rest => .instruction (decode (.evt w)) { s with pending := rest, nowMs := now }
  | .crcPort c d :: rest => .instruction (decode (.crcPort c d)) { s with pending := rest }
  | .mapPort x y :: rest => .instruction (decode (.mapPort x y)) { s with pending := rest }
  | .configure c :: rest => .configuration c { s with pending := rest }

/-- Place a word where the next step takes its input: an EVT word on the event port; an RXDEC word as its
state code in `rx_state` and a FEED of its byte on the event port, since that is how the block comes to
decode it (`41_receiver.md` R90); port operands on their port (log 12). -/
def placeCode (c : Code) (s : State) : State :=
  match c with
  | .evt w => { s with pending := .event w s.nowMs :: s.pending }
  | .rxdec k => { s with rxState := rxCode k, pending := .event (evtWord 0 (rxByte k)) s.nowMs :: s.pending }
  | .crcPort a b => { s with pending := .crcPort a b :: s.pending }
  | .mapPort x y => { s with pending := .mapPort x y :: s.pending }

/-- Place a word numbered as `spec/opcode_table.json` numbers it; a number that is no word leaves the state
as it is. -/
def placeTableWord (s : State) (nbits w : Nat) : State :=
  match tableCode nbits w with
  | some c => placeCode c s
  | none => s

end Sys2Proof.Machine
end

