-- ==== Sys2Proof/Machine/Operands.lean ====
section
/-! DEFINITION. The operand forms: the length field assembled from its two bytes, the triplets of a payload,
and the cells of the grid in payload order. -/

namespace Sys2Proof.Machine

/-- `declared_length` as a 16-bit value, `{LEN_HI, LEN_LO}`: little-endian on the wire, unsigned, not scaled
(`30_encoding.md` R61, `20_memory.md` R44). -/
def LenReg.value (d : LenReg) : BitVec 16 := d.hi ++ d.lo

/-- `declared_length[7:0] <- b`, the other bits unchanged (`41_receiver.md` R96). -/
def LenReg.setLow (d : LenReg) (b : Byte) : LenReg := { d with lo := b }

/-- `declared_length[15:8] <- b`, the other bits unchanged (`41_receiver.md` R97). -/
def LenReg.setHigh (d : LenReg) (b : Byte) : LenReg := { d with hi := b }

/-- The triplet `(p[3*i], p[3*i+1], p[3*i+2])` of a payload; `none` past its end (`30_encoding.md` R62). -/
def pixelAt (p : List Byte) (i : Nat) : Option Rgb :=
  match p[3 * i]?, p[3 * i + 1]?, p[3 * i + 2]? with
  | some r, some g, some b => some ⟨r, g, b⟩
  | _, _, _ => none

/-- The row-major cell index `i = y*W + x` (`42_applier.md` R123). -/
def cellIndex (c : Config) (x y : Nat) : Nat := y * c.w + x

/-- The cells `(x, y)` of the grid in payload order: `y` slowest, `x` fastest (`20_memory.md` R45). -/
def gridCells (c : Config) : List (Nat × Nat) :=
  (List.range c.h).flatMap fun y => (List.range c.w).map fun x => (x, y)

end Sys2Proof.Machine
end

