-- ==== Sys2Proof/Machine/Control.lean ====
section
/-! DEFINITION. RESET and the reserved EVT kind (`70_reset_and_hazards.md`, `60_exceptions.md` R169). -/

namespace Sys2Proof.Machine

/-- RESET(now): hunt for SYNC1, clear the counter, blacken the pixel buffer, stamp the time; `frame_id`,
`declared_length` and `pay_buf` are unspecified; no flush; the result is Idle (`70_reset_and_hazards.md` R180).
The data bits are ignored (`30_encoding.md` R64). -/
def execReset (_data : Byte) (s : State) : Out :=
  match blackenAll (setBytesReceived 0 (setRxState 0 s)) with
  | .error f => .fault f
  | .ok s' => .next (emit .idle (markStarted (forgetUnspecified (stampLastOk s'))))

/-- EVT_RESERVED: `kind = 11` spells no event and is refused (`30_encoding.md` R64, `60_exceptions.md` R169). -/
def execEvtReserved (_data : Byte) (_s : State) : Out := .refused .reservedEvent

end Sys2Proof.Machine
end

