-- ==== Sys2Proof/Machine/Flags.lean ====
section
/-! DEFINITION. The block has no flags and no condition codes (`10_state.md` R29). What takes their place is
the result of an event, driven on `ev_result`, `rej_cause` and `ev_payload` (`10_state.md` R31): this file is
their encoding. -/

namespace Sys2Proof.Machine

/-- `ev_result[1:0]`; `11` is never driven (`10_state.md` R31). -/
def evResult : Result → BitVec 2
  | .idle => 0
  | .frameReady _ => 1
  | .rejected _ => 2

/-- The code of a cause: 0 LENGTH, 1 CRC (`60_exceptions.md` R161). -/
def Cause.code : Cause → BitVec 1
  | .length => 0
  | .crc => 1

/-- `rej_cause`; `none` where it does not matter (`10_state.md` R31; log 20). -/
def rejCause : Result → Option (BitVec 1)
  | .rejected c => some c.code
  | _ => none

/-- `ev_payload`; `none` where it does not matter (`10_state.md` R31; log 20). -/
def evPayload : Result → Option (List Byte)
  | .frameReady p => some p
  | _ => none

end Sys2Proof.Machine
end

