-- ==== Sys2Proof/Machine/Applier.lean ====
section
/-! DEFINITION. The Frame Applier and the serpentine address mapper (`42_applier.md`). -/

namespace Sys2Proof.Machine

/-- `serp(x, y)`: even rows map straight, odd rows reversed (`42_applier.md` R120). -/
def serp (c : Config) (x y : Nat) : Nat :=
  if y % 2 = 0 then y * c.w + x else y * c.w + (c.w - 1 - x)

/-- The writes of `Apply(p)` for a list of cells, in order: the triplet of cell `(x, y)` goes to slot
`serp(x, y)` (`42_applier.md` R123). -/
def applyCells (p : List Byte) : List (Nat × Nat) → State → Except Fault State
  | [], s => .ok s
  | (x, y) :: rest, s =>
    match pixelAt p (cellIndex s.cfg x y) with
    | none => .error .outOfRangeBufferIndex
    | some px =>
      match writePixel (serp s.cfg x y) px s with
      | .error f => .error f
      | .ok s' => applyCells p rest s'

/-- `Apply(p)`: all `W*H` writes, then exactly one flush (`42_applier.md` R123, R124). -/
def applyFrame (p : List Byte) (s : State) : Except Fault State :=
  match applyCells p (gridCells s.cfg) s with
  | .error f => .error f
  | .ok s' => .ok (flush s')

/-- SERP_MAP: the combinational output `map_slot = serp(map_x, map_y)` for inputs in the grid; outside it the
model refuses (`42_applier.md` R121). -/
def execSerpMap (mapX mapY : Nat) (s : State) : Out :=
  if mapX < s.cfg.w ∧ mapY < s.cfg.h then .next (driveMapSlot (serp s.cfg mapX mapY) s)
  else .refused .mapperInputOutOfRange

end Sys2Proof.Machine
end

