-- ==== Sys2Proof/Machine/Crc.lean ====
section
/-! DEFINITION. The CRC Engine (`40_crc.md`): polynomial 0x07, initial value 0, most significant bit first, no
reflection, no final XOR. It holds no state (R88). -/

namespace Sys2Proof.Machine

/-- One of the eight shifts of `crc8_step`: shift left, and XOR 0x07 if the bit shifted out was set
(`40_crc.md` R80). -/
def crcShift (r : Byte) : Byte := if r.msb then (r <<< 1) ^^^ 0x07 else r <<< 1

/-- `crcShift` a number of times. -/
def crcShifts : Nat → Byte → Byte
  | 0, r => r
  | n + 1, r => crcShifts n (crcShift r)

/-- `crc8_step(c, b)`, one byte of the CRC (`40_crc.md` R80). -/
def crc8Step (c b : Byte) : Byte := crcShifts 8 (c ^^^ b)

/-- `checksum(s)` (`40_crc.md` R81). -/
def checksum (p : List Byte) : Byte := p.foldl crc8Step 0

/-- CRC_STEP: the combinational output `crc_out = crc8_step(crc_in, crc_data)` (`40_crc.md` R82). -/
def execCrcStep (crcIn crcData : Byte) (s : State) : Out := .next (driveCrcOut (crc8Step crcIn crcData) s)

end Sys2Proof.Machine
end

