-- ==== Sys2Proof/Machine/Receiver.lean ====
section
/-! DEFINITION. The Frame Receiver (`41_receiver.md`): one meaning for each row of the RXDEC table, and FEED,
which performs the row that `rx_state` and the byte select. A row's own meaning is its rule's pseudocode; the
selection is FEED's alone (log 13). The state codes are those of `10_state.md` R21. -/

namespace Sys2Proof.Machine

/-- AwaitingSync1, byte 0xAA: to AwaitingSync2 (R91). -/
def execRxSync1Hit (s : State) : Out := .next (emit .idle (setRxState 1 s))

/-- AwaitingSync1, any other byte: absorbed, nothing is written (R92). -/
def execRxSync1Miss (_b : Byte) (s : State) : Out := .next (emit .idle s)

/-- AwaitingSync2, byte 0x55: to FrameId (R93). -/
def execRxSync2Hit (s : State) : Out := .next (emit .idle (setRxState 2 s))

/-- AwaitingSync2, any other byte: back to AwaitingSync1; the byte is not looked at again (R94). -/
def execRxSync2Miss (_b : Byte) (s : State) : Out := .next (emit .idle (setRxState 0 s))

/-- FrameId: store the id, to LenLow (R95). -/
def execRxFrameId (b : Byte) (s : State) : Out := .next (emit .idle (setRxState 3 (setFrameId b s)))

/-- LenLow: store the low byte of the length, to LenHigh (R96). -/
def execRxLenLow (b : Byte) (s : State) : Out :=
  .next (emit .idle (setRxState 4 (setDeclaredLength (s.declaredLength.setLow b) s)))

/-- LenHigh: store the high byte, clear the counter, and compare the length with `L` (R97). -/
def execRxLenHigh (b : Byte) (s : State) : Out :=
  let len := s.declaredLength.setHigh b
  let s' := setBytesReceived 0 (setDeclaredLength len s)
  if len.value.toNat = payloadLen s.cfg then .next (emit .idle (setRxState 5 s'))
  else .next (reject .length s')

/-- Payload: store the byte at `bytes_received`, count it, and go to Crc when `L` bytes are in (R98). -/
def execRxPayload (b : Byte) (s : State) : Out :=
  match writePay s.bytesReceived.toNat b s with
  | .error f => .fault f
  | .ok s' =>
    let n := s.bytesReceived + 1
    if n.toNat = payloadLen s.cfg then .next (emit .idle (setRxState 6 (setBytesReceived n s')))
    else .next (emit .idle (setBytesReceived n s'))

/-- Crc: compare the checksum of the payload; on a match report the frame, apply it with its one flush and
stamp the arrival; then hunt for SYNC1 (R99, `43_watchdog.md` R143). All of it is one event
(`20_memory.md` R54). -/
def execRxCrc (b : Byte) (s : State) : Out :=
  if checksum (payload s) = b then
    match applyFrame (payload s) (emit (.frameReady (payload s)) s) with
    | .error f => .fault f
    | .ok s' => .next (setRxState 0 (stampLastOk s'))
  else .next (reject .crc s)

/-- State code 7: a model fault, no register written and no result emitted (R100). -/
def execRxIllegalState (_b : Byte) (_s : State) : Out := .fault .illegalReceiverState

/-- The rule of the selected row (R90). -/
def performRow (r : RxRow) (s : State) : Out :=
  match r with
  | .sync1Hit => execRxSync1Hit s
  | .sync1Miss b => execRxSync1Miss b s
  | .sync2Hit => execRxSync2Hit s
  | .sync2Miss b => execRxSync2Miss b s
  | .frameId b => execRxFrameId b s
  | .lenLow b => execRxLenLow b s
  | .lenHigh b => execRxLenHigh b s
  | .payload b => execRxPayload b s
  | .crc b => execRxCrc b s
  | .illegal b => execRxIllegalState b s

/-- FEED(b): decode `{rx_state, b}` and perform the row's rule, which emits exactly one result (R90).
Refused before the first RESET (`70_reset_and_hazards.md` R181). -/
def execFeed (b : Byte) (s : State) : Out := afterReset s (performRow (decodeRxdec (rxWord s.rxState b)) s)

end Sys2Proof.Machine
end

