-- ==== Sys2Proof/Machine/Watchdog.lean ====
section
/-! DEFINITION. The Watchdog and the blanking override (`43_watchdog.md`). -/

namespace Sys2Proof.Machine

/-- The Watchdog is stale exactly when `elapsed > T` (`43_watchdog.md` R140, R141). -/
def stale (s : State) : Bool := decide (elapsed s.cfg.tw (sampledNow s) s.lastOkMs > s.cfg.t)

/-- `Blackout()`: every slot black, then one flush (`43_watchdog.md` R141). -/
def blackout (s : State) : Except Fault State :=
  match blackenAll s with
  | .error f => .error f
  | .ok s' => .ok (flush s')

/-- TICK: blank the display if the Watchdog is stale, and nothing else; the result is Idle
(`43_watchdog.md` R140 to R142, `10_state.md` R31). Refused before the first RESET
(`70_reset_and_hazards.md` R181). The data bits are ignored (`30_encoding.md` R64). -/
def execTick (_data : Byte) (s : State) : Out :=
  afterReset s
    (if stale s then
      match blackout s with
      | .error f => .fault f
      | .ok s' => .next (emit .idle s')
    else .next (emit .idle s))

end Sys2Proof.Machine
end

