-- ==== Sys2Proof/Machine/Dispatch.lean ====
section
/-! DEFINITION. One arm for each constructor of `Instr`. -/

namespace Sys2Proof.Machine

def exec (i : Instr) (s : State) : Host.Outcome State Fault Refusal :=
  match i with
  | .feed b => Sys2Proof.Machine.execFeed b s
  | .tick data => Sys2Proof.Machine.execTick data s
  | .reset data => Sys2Proof.Machine.execReset data s
  | .evtReserved data => Sys2Proof.Machine.execEvtReserved data s
  | .rxSync1Hit => Sys2Proof.Machine.execRxSync1Hit s
  | .rxSync1Miss b => Sys2Proof.Machine.execRxSync1Miss b s
  | .rxSync2Hit => Sys2Proof.Machine.execRxSync2Hit s
  | .rxSync2Miss b => Sys2Proof.Machine.execRxSync2Miss b s
  | .rxFrameId b => Sys2Proof.Machine.execRxFrameId b s
  | .rxLenLow b => Sys2Proof.Machine.execRxLenLow b s
  | .rxLenHigh b => Sys2Proof.Machine.execRxLenHigh b s
  | .rxPayload b => Sys2Proof.Machine.execRxPayload b s
  | .rxCrc b => Sys2Proof.Machine.execRxCrc b s
  | .rxIllegalState b => Sys2Proof.Machine.execRxIllegalState b s
  | .crcStep crcIn crcData => Sys2Proof.Machine.execCrcStep crcIn crcData s
  | .serpMap mapX mapY => Sys2Proof.Machine.execSerpMap mapX mapY s

end Sys2Proof.Machine
end

