-- ==== Sys2Proof/Machine/Step.lean ====
section
/-! DEFINITION. One step: take the next input and perform it whole (`10_state.md` R34, `20_memory.md` R51). -/

namespace Sys2Proof.Machine

/-- With no input the block holds its state (`60_exceptions.md` R175); an event, or the operands of a port,
are performed as the instruction they decode to. -/
def step (s : State) : Host.Outcome State Fault Refusal :=
  match fetch s with
  | .nothing => .next s
  | .configuration c s' => configure c s'
  | .instruction i s' => underLegalConfig s' (exec i s')

/-- `s` with an opcode-table word placed so that the next step performs it (log 12). -/
def State.withFetchWord (s : State) (nbits w : Nat) : State := placeTableWord s nbits w

end Sys2Proof.Machine
end

