-- ==== Sys2Proof/Machine/Script.lean ====
section
/-! DEFINITION. The event scripts of `30_encoding.md` R74 and R75: what the host presents, as a list of
inputs. A script is run by putting it into `State.pending`. -/

namespace Sys2Proof.Machine

/-- `FEED bb @t` (`30_encoding.md` R74). -/
def feedEvent (b : Byte) (t : Nat) : Input := .event (evtWord 0 b) t

/-- `TICK @t` (`30_encoding.md` R74). -/
def tickEvent (t : Nat) : Input := .event (evtWord 1 0) t

/-- `RESET @t` (`30_encoding.md` R74). -/
def resetEvent (t : Nat) : Input := .event (evtWord 2 0) t

/-- FEED events for a list of bytes, each at a time of its own; `FEEDS b0 ... bn @t` is the case of equal
times (`30_encoding.md` R75). How the bytes are split into reads leaves no trace (`41_receiver.md` R101). -/
def feedsAt (bytes : List Byte) (times : List Nat) : List Input := List.zipWith feedEvent bytes times

/-- The bytes `AA 55 id n[7:0] n[15:8]`, all of `BADLEN(id, n)` when `n` is not `L` (`30_encoding.md` R75). -/
def headerBytes (id : Byte) (n : Nat) : List Byte :=
  [sync1, sync2, id, BitVec.ofNat 8 n, BitVec.ofNat 8 (n / 256)]

/-- A wire frame whose CRC8 byte is `c`: `BADCRC(id, p, c)` when `c` is not the checksum
(`30_encoding.md` R60, R75). -/
def frameBytesWith (cfg : Config) (id : Byte) (p : List Byte) (c : Byte) : List Byte :=
  headerBytes id (payloadLen cfg) ++ p ++ [c]

/-- The bytes of `FRAME(id, p)` (`30_encoding.md` R60, R75). -/
def frameBytes (cfg : Config) (id : Byte) (p : List Byte) : List Byte := frameBytesWith cfg id p (checksum p)

end Sys2Proof.Machine
end

