-- ==== Sys2Proof/Safety.lean ====
section
/-! DEFINITION. The terms in which claims about the machine are made: a run of steps, the invariant of
`10_state.md` R35, and the inputs a host that keeps its duties presents. -/

namespace Sys2Proof.Machine

/-- A number of steps, stopping at the first fault or refusal. -/
def runSteps (n : Nat) (s : State) : Out := Host.Core.run Sys2Proof.core n s

/-- Every byte of PAY below a bound has been stored since the last RESET. -/
def payFilled (s : State) (bound : Nat) : Prop := ∀ a, a < bound → (lookup s.pay a).isSome = true

/-- What holds after RESET and after every event (`10_state.md` R35), with what R24, R25 and R27 add: the
counter never exceeds `L`, the bytes the checksum reads have all been stored, the timestamp has `TW` bits, and
both memories are in canonical form. -/
structure BlockInv (s : State) : Prop where
  configuration : legalConfig s.cfg = true
  rxStateCode : s.rxState.toNat ≤ 6
  count : s.bytesReceived.toNat ≤ payloadLen s.cfg
  inPayload : s.rxState = 5 →
    s.bytesReceived.toNat < payloadLen s.cfg ∧ s.declaredLength.value.toNat = payloadLen s.cfg ∧
      payFilled s s.bytesReceived.toNat
  inCrc : s.rxState = 6 →
    s.bytesReceived.toNat = payloadLen s.cfg ∧ s.declaredLength.value.toNat = payloadLen s.cfg ∧
      payFilled s (payloadLen s.cfg)
  payWf : Memory.wf .pay (payloadLen s.cfg) s.pay
  pixWf : Memory.wf .pix (payloadLen s.cfg) s.pix
  timestamp : s.lastOkMs < 2 ^ s.cfg.tw

/-- An input that `60_exceptions.md` R169 does not refuse in the given state. -/
def admitted (s : State) : Input → Bool
  | .event w _ => decide (w &&& 0x300 ≠ 0x300) && (s.started || decide (w &&& 0x300 = 0x200))
  | .crcPort _ _ => true
  | .mapPort x y => decide (x < s.cfg.w) && decide (y < s.cfg.h)
  | .configure c => legalConfig c && (decide (s.cfg = c) || !s.started)

/-- Every slot of the pixel buffer is black (`43_watchdog.md` R141). -/
def allBlack (s : State) : Prop := ∀ slot, slot < slotCount s.cfg → readPixel s slot = Rgb.black

/-- The flush a blackout delivers under a configuration (`43_watchdog.md` R141). -/
def blackFlush (c : Config) : Flush := ⟨List.replicate (slotCount c) Rgb.black, c.brightness, c.currentLimit⟩

/-- The match and mask columns of the RXDEC table, in its order (`30_encoding.md` R65). -/
def rxTable : List (RxWord × RxWord) :=
  [(0x0AA, 0x7FF), (0x000, 0x700), (0x155, 0x7FF), (0x100, 0x700), (0x200, 0x700),
   (0x300, 0x700), (0x400, 0x700), (0x500, 0x700), (0x600, 0x700), (0x700, 0x700)]

/-- The position in that table of a row. -/
def rowPosition : RxRow → Nat
  | .sync1Hit => 0
  | .sync1Miss _ => 1
  | .sync2Hit => 2
  | .sync2Miss _ => 3
  | .frameId _ => 4
  | .lenLow _ => 5
  | .lenHigh _ => 6
  | .payload _ => 7
  | .crc _ => 8
  | .illegal _ => 9

/-- The table form of the CRC step, row `r` holding the entries `16*r` to `16*r + 15` (`40_crc.md` R85). No
meaning uses it. -/
def crcTable : List Byte :=
  [0x00, 0x07, 0x0E, 0x09, 0x1C, 0x1B, 0x12, 0x15, 0x38, 0x3F, 0x36, 0x31, 0x24, 0x23, 0x2A, 0x2D] ++
  [0x70, 0x77, 0x7E, 0x79, 0x6C, 0x6B, 0x62, 0x65, 0x48, 0x4F, 0x46, 0x41, 0x54, 0x53, 0x5A, 0x5D] ++
  [0xE0, 0xE7, 0xEE, 0xE9, 0xFC, 0xFB, 0xF2, 0xF5, 0xD8, 0xDF, 0xD6, 0xD1, 0xC4, 0xC3, 0xCA, 0xCD] ++
  [0x90, 0x97, 0x9E, 0x99, 0x8C, 0x8B, 0x82, 0x85, 0xA8, 0xAF, 0xA6, 0xA1, 0xB4, 0xB3, 0xBA, 0xBD] ++
  [0xC7, 0xC0, 0xC9, 0xCE, 0xDB, 0xDC, 0xD5, 0xD2, 0xFF, 0xF8, 0xF1, 0xF6, 0xE3, 0xE4, 0xED, 0xEA] ++
  [0xB7, 0xB0, 0xB9, 0xBE, 0xAB, 0xAC, 0xA5, 0xA2, 0x8F, 0x88, 0x81, 0x86, 0x93, 0x94, 0x9D, 0x9A] ++
  [0x27, 0x20, 0x29, 0x2E, 0x3B, 0x3C, 0x35, 0x32, 0x1F, 0x18, 0x11, 0x16, 0x03, 0x04, 0x0D, 0x0A] ++
  [0x57, 0x50, 0x59, 0x5E, 0x4B, 0x4C, 0x45, 0x42, 0x6F, 0x68, 0x61, 0x66, 0x73, 0x74, 0x7D, 0x7A] ++
  [0x89, 0x8E, 0x87, 0x80, 0x95, 0x92, 0x9B, 0x9C, 0xB1, 0xB6, 0xBF, 0xB8, 0xAD, 0xAA, 0xA3, 0xA4] ++
  [0xF9, 0xFE, 0xF7, 0xF0, 0xE5, 0xE2, 0xEB, 0xEC, 0xC1, 0xC6, 0xCF, 0xC8, 0xDD, 0xDA, 0xD3, 0xD4] ++
  [0x69, 0x6E, 0x67, 0x60, 0x75, 0x72, 0x7B, 0x7C, 0x51, 0x56, 0x5F, 0x58, 0x4D, 0x4A, 0x43, 0x44] ++
  [0x19, 0x1E, 0x17, 0x10, 0x05, 0x02, 0x0B, 0x0C, 0x21, 0x26, 0x2F, 0x28, 0x3D, 0x3A, 0x33, 0x34] ++
  [0x4E, 0x49, 0x40, 0x47, 0x52, 0x55, 0x5C, 0x5B, 0x76, 0x71, 0x78, 0x7F, 0x6A, 0x6D, 0x64, 0x63] ++
  [0x3E, 0x39, 0x30, 0x37, 0x22, 0x25, 0x2C, 0x2B, 0x06, 0x01, 0x08, 0x0F, 0x1A, 0x1D, 0x14, 0x13] ++
  [0xAE, 0xA9, 0xA0, 0xA7, 0xB2, 0xB5, 0xBC, 0xBB, 0x96, 0x91, 0x98, 0x9F, 0x8A, 0x8D, 0x84, 0x83] ++
  [0xDE, 0xD9, 0xD0, 0xD7, 0xC2, 0xC5, 0xCC, 0xCB, 0xE6, 0xE1, 0xE8, 0xEF, 0xFA, 0xFD, 0xF4, 0xF3]

/-- Two outcomes are the same but for what a relation of states leaves open: both answer related states, or
both stop for the same reason. -/
def Out.related (R : State → State → Prop) : Out → Out → Prop
  | .next s, .next t => R s t
  | .fault f, .fault g => f = g
  | .refused q, .refused r => q = r
  | _, _ => False

/-- Two states that agree on everything the spec gives a value and a reader: they may differ in `frame_id`,
in `declared_length` but for its low byte between LenLow and LenHigh, in `bytes_received` outside Payload, and
in the bytes of `pay_buf` that the frame in flight has not stored (`10_state.md` R22 to R25). -/
structure SameVisible (s t : State) : Prop where
  cfg : s.cfg = t.cfg
  rxState : s.rxState = t.rxState
  pix : s.pix = t.pix
  lastOkMs : s.lastOkMs = t.lastOkMs
  started : s.started = t.started
  nowMs : s.nowMs = t.nowMs
  pending : s.pending = t.pending
  results : s.results = t.results
  flushes : s.flushes = t.flushes
  crcOut : s.crcOut = t.crcOut
  mapSlot : s.mapSlot = t.mapSlot
  lenLow : s.rxState = 4 → s.declaredLength.lo = t.declaredLength.lo
  count : s.rxState = 5 → s.bytesReceived = t.bytesReceived
  prefixStored : s.rxState = 5 → ∀ a, a < s.bytesReceived.toNat → readByte s .pay a = readByte t .pay a
  payloadStored : s.rxState = 6 → ∀ a, a < payloadLen s.cfg → readByte s .pay a = readByte t .pay a

/-- Two states that agree on everything but the times of the events performed. -/
def sameButTimes (s t : State) : Prop := { s with nowMs := 0, lastOkMs := 0 } = { t with nowMs := 0, lastOkMs := 0 }

end Sys2Proof.Machine
end

