-- ==== Sys2Proof/Certificates/Slice0/Obligations.lean ====
section
/-! DEFINITION. The statements for the provers, in the order of the spec's files: encodings, the step,
configuration, the receiver, the applier and the mapper, the CRC, the watchdog, reset, and the machine as a
whole. Where a statement's conclusion is `t = { s with … := t.… }`, it says that every field not named there
is unchanged. -/

open Sys2Proof Sys2Proof.Machine

/-! ### Encodings -/

/-- Words written out from the tables of `30_encoding.md` R63 and R65 decode to the rows they stand for (that TICK,
RESET and the reserved row carry their data bits as an operand is the model's choice, log 21). -/
def Obligations.WordsOfEveryFamilyDecode : Prop :=
  decode (.evt 0x0AA) = .feed 0xAA ∧ decode (.evt 0x100) = .tick 0x00 ∧ decode (.evt 0x1FF) = .tick 0xFF ∧
  decode (.evt 0x200) = .reset 0x00 ∧ decode (.evt 0x255) = .reset 0x55 ∧
  decode (.evt 0x3AA) = .evtReserved 0xAA ∧
  decode (.rxdec 0x0AA) = .rxSync1Hit ∧ decode (.rxdec 0x055) = .rxSync1Miss 0x55 ∧
  decode (.rxdec 0x155) = .rxSync2Hit ∧ decode (.rxdec 0x1AA) = .rxSync2Miss 0xAA ∧
  decode (.rxdec 0x2AA) = .rxFrameId 0xAA ∧ decode (.rxdec 0x30C) = .rxLenLow 0x0C ∧
  decode (.rxdec 0x403) = .rxLenHigh 0x03 ∧ decode (.rxdec 0x5AA) = .rxPayload 0xAA ∧
  decode (.rxdec 0x642) = .rxCrc 0x42 ∧ decode (.rxdec 0x700) = .rxIllegalState 0x00 ∧
  decode (.crcPort 0x12 0x34) = .crcStep 0x12 0x34 ∧ decode (.mapPort 3 1) = .serpMap 3 1

/-- `kind` alone selects the event, the data bits of TICK and RESET change nothing, and `kind = 11` is
refused (`30_encoding.md` R64; that those rows carry their data bits as an operand is the model's choice, log 21). -/
def Obligations.EvtKindAloneSelectsTheEvent : Prop :=
  ∀ (d : Byte) (s : State),
    decode (.evt (0#2 ++ d)) = .feed d ∧ decode (.evt (1#2 ++ d)) = .tick d ∧
    decode (.evt (2#2 ++ d)) = .reset d ∧ decode (.evt (3#2 ++ d)) = .evtReserved d ∧
    exec (.tick d) s = exec (.tick 0) s ∧ exec (.reset d) s = exec (.reset 0) s ∧
    exec (.evtReserved d) s = .refused .reservedEvent

/-- Every RXDEC word has a first row of the table that matches it, the decoder selects that row, and the row's
byte is the word's (`30_encoding.md` R65). -/
def Obligations.RxdecSelectsTheFirstMatchingRow : Prop :=
  ∀ k : RxWord,
    rxTable.findIdx? (fun row => k &&& row.2 == row.1) = some (rowPosition (decodeRxdec k)) ∧
    encode (decodeRxdec k).instr = .rxdec k

/-- Decoding the encoding of a well-formed instruction gives it back, with every operand. The spec's word for TICK is
`0x100` and for RESET `0x200` (`30_encoding.md` R63); that these two and the reserved row carry their data bits as an
operand, which the encoder writes back, is the model's choice (log 21). -/
def Obligations.DecodeOfEncodeIsTheInstruction : Prop :=
  ∀ i : Instr, i.wellFormed = true → decode (encode i) = i

/-- Every encoded form decodes to a well-formed instruction whose encoding is that form: no bit of a word is
dropped, and no two forms spell one instruction. For the words of TICK, RESET and the reserved row with data bits
other than 0 this does not follow from `30_encoding.md` R63 and R64, which ignore those bits: it rests on the model's
choice to keep them as an operand (log 21). -/
def Obligations.EncodeOfDecodeIsTheWord : Prop :=
  ∀ c : Code, (decode c).wellFormed = true ∧ encode (decode c) = c

/-! ### The step and the configuration -/

/-- A step runs the instruction its input decodes to, in the state with the input taken and its `now_ms`
sampled (`10_state.md` R34; that the inputs to come are a list in the state is the model's choice, log 2). -/
def Obligations.StepRunsTheDecodedInstruction : Prop :=
  ∀ (s : State) (rest : List Input), legalConfig s.cfg = true →
    (∀ (w : EvtWord) (now : Nat), s.pending = .event w now :: rest →
      step s = exec (decode (.evt w)) { s with pending := rest, nowMs := now }) ∧
    (∀ c d : Byte, s.pending = .crcPort c d :: rest → step s = exec (.crcStep c d) { s with pending := rest }) ∧
    (∀ x y : Nat, s.pending = .mapPort x y :: rest → step s = exec (.serpMap x y) { s with pending := rest })

/-- With no event the block holds its state (`60_exceptions.md` R175; an empty list of inputs stands for no event,
the model's choice, log 2). -/
def Obligations.StepWithoutInputHoldsTheState : Prop :=
  ∀ s : State, s.pending = [] → step s = .next s

/-- Once RESET has been performed no step changes the configuration, and a change the host asks for is refused
(`70_reset_and_hazards.md` R186; that the host asks by an input is the model's choice, log 11). -/
def Obligations.ConfigurationFixedWhileRunning : Prop :=
  (∀ s t : State, s.started = true → step s = .next t → t.cfg = s.cfg ∧ t.started = true) ∧
  (∀ (s : State) (c : Config) (rest : List Input), s.started = true → s.pending = .configure c :: rest →
    legalConfig c = true → c ≠ s.cfg → step s = .refused .configurationChange)

/-- A grid the spec does not admit is refused: no input but a configuration is performed under it, and it is
not taken as a configuration (`00_scope.md` R7, `60_exceptions.md` R169; the configuration input is the model's
choice, log 11). -/
def Obligations.IllegalGridIsRefused : Prop :=
  (∀ (s : State) (inp : Input) (rest : List Input), s.pending = inp :: rest → (∀ c, inp ≠ .configure c) →
    (s.cfg.w < 1 ∨ s.cfg.h < 1 ∨ s.cfg.w * s.cfg.h * 3 > 65535) → step s = .refused .illegalConfiguration) ∧
  (∀ (s : State) (c : Config) (rest : List Input), s.pending = .configure c :: rest →
    (c.w < 1 ∨ c.h < 1 ∨ c.w * c.h * 3 > 65535) → step s = .refused .illegalConfiguration)

/-! ### The Frame Receiver -/

/-- FEED performs the one row that `{rx_state, b}` selects (`41_receiver.md` R90). -/
def Obligations.FeedPerformsTheSelectedRow : Prop :=
  ∀ (s : State) (b : Byte), s.started = true →
    exec (.feed b) s = exec (decodeRxdec (s.rxState ++ b)).instr s

/-- The four rows that hunt for sync, and when FEED performs each (`41_receiver.md` R91 to R94). -/
def Obligations.SyncRowsMoveTheReceiver : Prop :=
  ∀ (s : State) (b : Byte),
    exec .rxSync1Hit s = .next { s with rxState := 1, results := .idle :: s.results } ∧
    exec (.rxSync1Miss b) s = .next { s with results := .idle :: s.results } ∧
    exec .rxSync2Hit s = .next { s with rxState := 2, results := .idle :: s.results } ∧
    exec (.rxSync2Miss b) s = .next { s with rxState := 0, results := .idle :: s.results } ∧
    (s.started = true → s.rxState = 0 → exec (.feed 0xAA) s = exec .rxSync1Hit s) ∧
    (s.started = true → s.rxState = 0 → b ≠ 0xAA → exec (.feed b) s = exec (.rxSync1Miss b) s) ∧
    (s.started = true → s.rxState = 1 → exec (.feed 0x55) s = exec .rxSync2Hit s) ∧
    (s.started = true → s.rxState = 1 → b ≠ 0x55 → exec (.feed b) s = exec (.rxSync2Miss b) s)

/-- FRAME_ID and the low byte of LEN are stored, the other length bits unchanged (`41_receiver.md` R95, R96). -/
def Obligations.HeaderRowsStoreTheirByte : Prop :=
  ∀ (s : State) (b : Byte),
    exec (.rxFrameId b) s = .next { s with frameId := b, rxState := 3, results := .idle :: s.results } ∧
    exec (.rxLenLow b) s =
      .next { s with declaredLength := ⟨s.declaredLength.hi, b⟩, rxState := 4, results := .idle :: s.results } ∧
    (⟨s.declaredLength.hi, b⟩ : LenReg).value = s.declaredLength.value.extractLsb' 8 8 ++ b ∧
    (s.started = true → s.rxState = 2 → exec (.feed b) s = exec (.rxFrameId b) s) ∧
    (s.started = true → s.rxState = 3 → exec (.feed b) s = exec (.rxLenLow b) s)

/-- LenHigh assembles LEN little-endian, clears the counter, goes on to the payload if LEN is `L`, and rejects
the frame with cause LENGTH if it is not (`41_receiver.md` R97). -/
def Obligations.LenHighChecksTheLength : Prop :=
  ∀ (s : State) (b : Byte),
    (⟨b, s.declaredLength.lo⟩ : LenReg).value = b ++ s.declaredLength.value.extractLsb' 0 8 ∧
    (b.toNat * 256 + s.declaredLength.lo.toNat = payloadLen s.cfg →
      exec (.rxLenHigh b) s =
        .next { s with declaredLength := ⟨b, s.declaredLength.lo⟩, bytesReceived := 0, rxState := 5,
                       results := .idle :: s.results }) ∧
    (b.toNat * 256 + s.declaredLength.lo.toNat ≠ payloadLen s.cfg →
      exec (.rxLenHigh b) s =
        .next { s with declaredLength := ⟨b, s.declaredLength.lo⟩, bytesReceived := 0, rxState := 0,
                       results := .rejected .length :: s.results }) ∧
    (s.started = true → s.rxState = 4 → exec (.feed b) s = exec (.rxLenHigh b) s)

/-- A payload byte is stored at `bytes_received`, counted, and the last one moves the receiver to Crc; no
other byte of PAY or PIX and no other field changes (`41_receiver.md` R98). -/
def Obligations.PayloadByteIsStoredAndCounted : Prop :=
  ∀ (s : State) (b : Byte), s.bytesReceived.toNat < payloadLen s.cfg → payloadLen s.cfg ≤ 65535 →
    (s.started = true → s.rxState = 5 → exec (.feed b) s = exec (.rxPayload b) s) ∧
    ∃ t : State, exec (.rxPayload b) s = .next t ∧
      readByte t .pay s.bytesReceived.toNat = b ∧
      (∀ a, a ≠ s.bytesReceived.toNat → readByte t .pay a = readByte s .pay a) ∧
      (∀ a, readByte t .pix a = readByte s .pix a) ∧
      t.bytesReceived.toNat = s.bytesReceived.toNat + 1 ∧
      t.rxState = (if s.bytesReceived.toNat + 1 = payloadLen s.cfg then 6 else s.rxState) ∧
      t = { s with pay := t.pay, bytesReceived := t.bytesReceived, rxState := t.rxState,
                   results := .idle :: s.results }

/-- A payload byte beyond the buffer is the model fault of an index out of range (`20_memory.md` R43). -/
def Obligations.PayloadBeyondTheBufferFaults : Prop :=
  ∀ (s : State) (b : Byte), payloadLen s.cfg ≤ s.bytesReceived.toNat →
    exec (.rxPayload b) s = .fault .outOfRangeBufferIndex

/-- The CRC byte: on a match the payload is reported, every cell's triplet is at its slot, one flush of the
finished buffer is delivered and the arrival is stamped; on a mismatch the frame is rejected with cause CRC and
display, flushes and timestamp are untouched; either way the receiver hunts for sync again
(`41_receiver.md` R99, `42_applier.md` R124, R127). -/
def Obligations.CrcByteAppliesOrRejects : Prop :=
  ∀ (s : State) (b : Byte),
    (checksum (payload s) = b →
      ∃ t : State, exec (.rxCrc b) s = .next t ∧
        (∀ x y c, x < s.cfg.w → y < s.cfg.h → c < 3 →
          readByte t .pix (3 * serp s.cfg x y + c) = readByte s .pay (3 * (y * s.cfg.w + x) + c)) ∧
        (∀ a, payloadLen s.cfg ≤ a → readByte t .pix a = readByte s .pix a) ∧
        (∀ a, readByte t .pay a = readByte s .pay a) ∧
        t = { s with
              pix := t.pix
              results := .frameReady ((List.range (payloadLen s.cfg)).map (readByte s .pay)) :: s.results
              flushes := ⟨pixels t, s.cfg.brightness, s.cfg.currentLimit⟩ :: s.flushes
              lastOkMs := s.nowMs % 2 ^ s.cfg.tw
              rxState := 0 }) ∧
    (checksum (payload s) ≠ b →
      exec (.rxCrc b) s = .next { s with rxState := 0, results := .rejected .crc :: s.results }) ∧
    (s.started = true → s.rxState = 6 → exec (.feed b) s = exec (.rxCrc b) s)

/-- State code 7 is a model fault on every byte (`41_receiver.md` R100). -/
def Obligations.IllegalReceiverStateFaults : Prop :=
  ∀ (s : State) (b : Byte),
    exec (.rxIllegalState b) s = .fault .illegalReceiverState ∧
    (s.started = true → s.rxState = 7 → exec (.feed b) s = .fault .illegalReceiverState)

/-- FEED never blocks: in every receiver state but the illegal one, with the counter in range while a payload
is taken, every byte is accepted with exactly one result, and only a FrameReady comes with a flush
(`41_receiver.md` R90, `60_exceptions.md` R160, `70_reset_and_hazards.md` R193). -/
def Obligations.FeedAlwaysCompletesWithOneResult : Prop :=
  ∀ (s : State) (b : Byte), s.started = true → s.rxState ≠ 7 →
    (s.rxState = 5 → s.bytesReceived.toNat < payloadLen s.cfg) →
    ∃ (t : State) (r : Result), exec (.feed b) s = .next t ∧ t.results = r :: s.results ∧
      (t.flushes = s.flushes ∨ (t.flushes = flushOf t :: s.flushes ∧ ∃ p, r = .frameReady p))

/-- Only FEED, its rows and RESET change a receiver register (`41_receiver.md` R106). -/
def Obligations.OnlyFeedAndResetWriteTheReceiver : Prop :=
  ∀ (i : Instr) (s t : State), exec i s = .next t →
    ((∃ d, i = .tick d) ∨ (∃ c d, i = .crcStep c d) ∨ (∃ x y, i = .serpMap x y)) →
    t.rxState = s.rxState ∧ t.frameId = s.frameId ∧ t.declaredLength = s.declaredLength ∧
    t.bytesReceived = s.bytesReceived ∧ ∀ a, readByte t .pay a = readByte s .pay a

/-- SYNC1 right after SYNC1 does not synchronise (`70_reset_and_hazards.md` R187). -/
def Obligations.RepeatedSync1IsNotRecognised : Prop :=
  ∀ (s : State) (t1 t2 t3 : Nat) (rest : List Input), s.started = true → legalConfig s.cfg = true →
    s.rxState = 0 → s.pending = feedsAt [0xAA, 0xAA, 0x55] [t1, t2, t3] ++ rest →
    runSteps 3 s = .next { s with pending := rest, nowMs := t3, results := .idle :: .idle :: .idle :: s.results }

/-- A header with a wrong length is rejected at its last byte with nothing consumed as payload, and the very
next byte is hunted for sync (`41_receiver.md` R97, R103, R109). -/
def Obligations.WrongLengthHeaderIsRejected : Prop :=
  ∀ (s : State) (id : Byte) (n : Nat) (times : List Nat) (rest : List Input), s.started = true →
    legalConfig s.cfg = true → s.rxState = 0 → n < 65536 → n ≠ payloadLen s.cfg → times.length = 5 →
    s.pending = feedsAt (headerBytes id n) times ++ rest →
    ∃ t : State, runSteps 5 s = .next t ∧ t.rxState = 0 ∧ t.pending = rest ∧ t.frameId = id ∧
      t.declaredLength.value.toNat = n ∧
      t.results = .rejected .length :: (List.replicate 4 .idle ++ s.results) ∧
      t = { s with rxState := 0, frameId := id, declaredLength := t.declaredLength, bytesReceived := 0,
                   nowMs := t.nowMs, pending := rest, results := t.results }

/-- A whole frame fed to a receiver that hunts for SYNC1 gives Idle at every byte but the last and FrameReady
with its payload there (`41_receiver.md` R107), is displayed with one flush (`42_applier.md` R124, R127) and stamps
the time of its CRC byte (`43_watchdog.md` R143), whatever the times its bytes arrive at. -/
def Obligations.OneFrameGivesOneFrameReady : Prop :=
  ∀ (s : State) (id : Byte) (p : List Byte) (times : List Nat) (rest : List Input), s.started = true →
    legalConfig s.cfg = true → s.rxState = 0 → p.length = payloadLen s.cfg →
    times.length = payloadLen s.cfg + 6 → s.pending = feedsAt (frameBytes s.cfg id p) times ++ rest →
    ∃ t : State, runSteps (payloadLen s.cfg + 6) s = .next t ∧ t.rxState = 0 ∧ t.pending = rest ∧
      t.results = .frameReady p :: (List.replicate (payloadLen s.cfg + 5) .idle ++ s.results) ∧
      (∀ x y c, x < s.cfg.w → y < s.cfg.h → c < 3 →
        p[3 * (y * s.cfg.w + x) + c]? = some (readByte t .pix (3 * serp s.cfg x y + c))) ∧
      t.flushes = flushOf t :: s.flushes ∧
      times.getLast? = some t.nowMs ∧ t.lastOkMs = t.nowMs % 2 ^ s.cfg.tw

/-- A frame with a wrong CRC8 is rejected at its last byte and leaves display, flushes and timestamp alone, and
a correct frame that follows at once is accepted (`41_receiver.md` R108). -/
def Obligations.GoodFrameAfterCrcRejectionIsAccepted : Prop :=
  ∀ (s : State) (id id' c : Byte) (p q : List Byte) (times times' : List Nat) (rest : List Input),
    s.started = true → legalConfig s.cfg = true → s.rxState = 0 →
    p.length = payloadLen s.cfg → q.length = payloadLen s.cfg → c ≠ checksum p →
    times.length = payloadLen s.cfg + 6 → times'.length = payloadLen s.cfg + 6 →
    s.pending = feedsAt (frameBytesWith s.cfg id p c) times ++ (feedsAt (frameBytes s.cfg id' q) times' ++ rest) →
    ∃ t u : State,
      runSteps (payloadLen s.cfg + 6) s = .next t ∧ t.rxState = 0 ∧
      t.results = .rejected .crc :: (List.replicate (payloadLen s.cfg + 5) .idle ++ s.results) ∧
      t.flushes = s.flushes ∧ t.lastOkMs = s.lastOkMs ∧ (∀ a, readByte t .pix a = readByte s .pix a) ∧
      runSteps (payloadLen s.cfg + 6) t = .next u ∧ u.rxState = 0 ∧ u.pending = rest ∧
      u.results = .frameReady q :: (List.replicate (payloadLen s.cfg + 5) .idle ++ t.results) ∧
      u.flushes = flushOf u :: s.flushes

/-- The times at which the bytes of a stream arrive change nothing but the timestamp: how a stream is split
into reads cannot change its results (`41_receiver.md` R101, R104). -/
def Obligations.ArrivalTimesDoNotChangeResults : Prop :=
  ∀ (s : State) (bytes : List Byte) (times times' : List Nat) (rest : List Input),
    times.length = bytes.length → times'.length = bytes.length →
    Out.related sameButTimes
      (runSteps bytes.length { s with pending := feedsAt bytes times ++ rest })
      (runSteps bytes.length { s with pending := feedsAt bytes times' ++ rest })

/-! ### The mapper and the frame applier -/

/-- The mapper port: even rows straight, odd rows reversed, refused outside the grid
(`42_applier.md` R120, R121). -/
def Obligations.SerpMapPortFollowsTheRows : Prop :=
  ∀ (s : State) (x y : Nat),
    (x < s.cfg.w → y < s.cfg.h → y % 2 = 0 →
      exec (.serpMap x y) s = .next { s with mapSlot := y * s.cfg.w + x }) ∧
    (x < s.cfg.w → y < s.cfg.h → y % 2 = 1 →
      exec (.serpMap x y) s = .next { s with mapSlot := y * s.cfg.w + (s.cfg.w - 1 - x) }) ∧
    (x ≥ s.cfg.w ∨ y ≥ s.cfg.h → exec (.serpMap x y) s = .refused .mapperInputOutOfRange)

/-- `serp` is a bijection from the cells of the grid onto the slots, each row onto its own `W` slots
(`42_applier.md` R122). -/
def Obligations.SerpIsABijection : Prop :=
  ∀ c : Config,
    (∀ x y, x < c.w → y < c.h → serp c x y < c.w * c.h ∧ y * c.w ≤ serp c x y ∧ serp c x y < y * c.w + c.w) ∧
    (∀ x y x' y', x < c.w → y < c.h → x' < c.w → y' < c.h → serp c x y = serp c x' y' → x = x' ∧ y = y') ∧
    (∀ slot, slot < c.w * c.h → ∃ x y, x < c.w ∧ y < c.h ∧ serp c x y = slot)

/-- The cell that lands in a slot (`42_applier.md` R128). -/
def Obligations.SerpInverseMap : Prop :=
  ∀ (c : Config) (slot : Nat), slot < c.w * c.h →
    slot / c.w < c.h ∧
    (slot / c.w % 2 = 0 → slot % c.w < c.w ∧ serp c (slot % c.w) (slot / c.w) = slot) ∧
    (slot / c.w % 2 = 1 → c.w - 1 - slot % c.w < c.w ∧ serp c (c.w - 1 - slot % c.w) (slot / c.w) = slot)

/-- A flush comes only from an accepted frame or a blackout, at most one with each event, and carries the
buffer as the event leaves it; without one, only RESET touches the buffer (`42_applier.md` R124, R125,
`10_state.md` R32). -/
def Obligations.FlushOnlyFromFrameOrBlackout : Prop :=
  ∀ (i : Instr) (s t : State), exec i s = .next t →
    (t.flushes = s.flushes ∧ ((∃ d, i = .reset d) ∨ ∀ a, readByte t .pix a = readByte s .pix a)) ∨
    (t.flushes = ⟨pixels t, s.cfg.brightness, s.cfg.currentLimit⟩ :: s.flushes ∧
      ((∃ d, i = .tick d) ∨ ∃ p, t.results = .frameReady p :: s.results))

/-! ### The CRC Engine -/

/-- The CRC port drives `crc8_step` of its operands and nothing else; the examples are those of
`40_crc.md` R80. -/
def Obligations.CrcStepPortDrivesTheStep : Prop :=
  (∀ (s : State) (c d : Byte), exec (.crcStep c d) s = .next { s with crcOut := crc8Step c d }) ∧
  crc8Step 0x00 0x01 = 0x07 ∧ crc8Step 0x00 0x80 = 0x89 ∧ crc8Step 0x12 0x34 = 0xF2

/-- The table form of the step: its result is the entry at the XOR of its operands (`40_crc.md` R85). -/
def Obligations.CrcTableForm : Prop :=
  crcTable.length = 256 ∧ ∀ c b : Byte, crcTable[(c ^^^ b).toNat]? = some (crc8Step c b)

/-- A checksum may be kept byte by byte: the incremental form (`40_crc.md` R84), and the checksum of nothing
(`40_crc.md` R81). -/
def Obligations.CrcIncrementalForm : Prop :=
  (∀ (p : List Byte) (b : Byte), checksum (p ++ [b]) = crc8Step (checksum p) b) ∧ checksum [] = 0

/-- The algebraic laws (a), (b) and (c) of `40_crc.md` R86. -/
def Obligations.CrcIsLinear : Prop :=
  (∀ c1 c2 b1 b2 : Byte, crc8Step (c1 ^^^ c2) (b1 ^^^ b2) = crc8Step c1 b1 ^^^ crc8Step c2 b2) ∧
  (∀ p q : List Byte, p.length = q.length →
    checksum (List.zipWith (fun a b => a ^^^ b) p q) = checksum p ^^^ checksum q) ∧
  (∀ p : List Byte, checksum (p ++ [checksum p]) = 0)

/-- Every single-bit error in a payload of any length changes its checksum. It is derived from the definition of the
checksum (`40_crc.md` R80, R81). R87 of that file gives it only for one payload of 768 bytes; the statement for every
length it marks as from general knowledge, not in the source, and no rule depends on it. -/
def Obligations.SingleBitErrorsAreDetected : Prop :=
  ∀ (p q : List Byte) (b : Byte) (k : Nat), k < 8 →
    checksum (p ++ (b ^^^ BitVec.twoPow 8 k) :: q) ≠ checksum (p ++ b :: q)

/-! ### The Watchdog -/

/-- A TICK within the threshold writes nothing; a TICK beyond it makes every slot black and delivers one flush
of the black buffer; neither touches the timestamp or the receiver (`43_watchdog.md` R140 to R142). -/
def Obligations.TickBlanksExactlyWhenStale : Prop :=
  ∀ (s : State) (d : Byte), s.started = true →
    ((((s.nowMs % 2 ^ s.cfg.tw : Nat) : Int) - (s.lastOkMs : Int)) % ((2 ^ s.cfg.tw : Nat) : Int) ≤ (s.cfg.t : Int) →
      exec (.tick d) s = .next { s with results := .idle :: s.results }) ∧
    ((((s.nowMs % 2 ^ s.cfg.tw : Nat) : Int) - (s.lastOkMs : Int)) % ((2 ^ s.cfg.tw : Nat) : Int) > (s.cfg.t : Int) →
      ∃ t : State, exec (.tick d) s = .next t ∧
        (∀ slot, slot < s.cfg.w * s.cfg.h → readPixel t slot = ⟨0, 0, 0⟩) ∧
        (∀ a, payloadLen s.cfg ≤ a → readByte t .pix a = readByte s .pix a) ∧
        (∀ a, readByte t .pay a = readByte s .pay a) ∧
        t = { s with pix := t.pix, flushes := blackFlush s.cfg :: s.flushes, results := .idle :: s.results })

/-- `elapsed` is the true time since the timestamp, modulo `2^TW` (`43_watchdog.md` R148). -/
def Obligations.ElapsedIsTrueTimeModuloWidth : Prop :=
  ∀ tw last e : Nat, elapsed tw ((last + e) % 2 ^ tw) last = e % 2 ^ tw

/-- The time-wrap hazard: for `T` ms after `2^TW` ms of outage a TICK does not blank
(`70_reset_and_hazards.md` R191). -/
def Obligations.TimeWrapHidesAnOutage : Prop :=
  ∀ (s : State) (d : Byte) (e : Nat), s.started = true → s.cfg.t < 2 ^ s.cfg.tw →
    s.nowMs = s.lastOkMs + e → 2 ^ s.cfg.tw ≤ e → e ≤ 2 ^ s.cfg.tw + s.cfg.t →
    exec (.tick d) s = .next { s with results := .idle :: s.results }

/-- A clock that steps back a little blanks the display: the difference wraps to a large value
(`70_reset_and_hazards.md` R184). -/
def Obligations.BackwardClockBlanks : Prop :=
  ∀ (s : State) (d : Byte), s.started = true → s.nowMs < s.lastOkMs → s.lastOkMs < 2 ^ s.cfg.tw →
    s.lastOkMs - s.nowMs + s.cfg.t < 2 ^ s.cfg.tw →
    ∃ t : State, exec (.tick d) s = .next t ∧ allBlack t ∧ t.flushes = blackFlush s.cfg :: s.flushes

/-- Every stale TICK performs its own blackout and its own flush, for as long as the stream stays stale, and
none advances the timestamp or touches the frame in flight (`43_watchdog.md` R142, R144). -/
def Obligations.StaleTicksEachBlankAndFlush : Prop :=
  ∀ (s : State) (times : List Nat) (rest : List Input), s.started = true → legalConfig s.cfg = true →
    s.pending = times.map tickEvent ++ rest →
    (∀ n ∈ times, elapsed s.cfg.tw (n % 2 ^ s.cfg.tw) s.lastOkMs > s.cfg.t) →
    ∃ t : State, runSteps times.length s = .next t ∧
      t.flushes = List.replicate times.length (blackFlush s.cfg) ++ s.flushes ∧
      (times ≠ [] → allBlack t) ∧
      t = { s with pix := t.pix, flushes := t.flushes, pending := rest, nowMs := t.nowMs,
                   results := List.replicate times.length .idle ++ s.results }

/-- No run of TICKs, stale or not, moves the receiver or loses a byte of the frame in flight: there is no
timeout (`41_receiver.md` R104, `43_watchdog.md` R144). -/
def Obligations.TicksNeverMoveTheReceiver : Prop :=
  ∀ (s : State) (times : List Nat) (rest : List Input), s.started = true → legalConfig s.cfg = true →
    s.pending = times.map tickEvent ++ rest →
    ∃ t : State, runSteps times.length s = .next t ∧ t.rxState = s.rxState ∧ t.frameId = s.frameId ∧
      t.declaredLength = s.declaredLength ∧ t.bytesReceived = s.bytesReceived ∧
      (∀ a, readByte t .pay a = readByte s .pay a) ∧ t.lastOkMs = s.lastOkMs ∧ t.pending = rest

/-- Only an accepted frame or RESET writes the timestamp, with the time of its own event
(`43_watchdog.md` R143). -/
def Obligations.OnlyFrameOrResetStampsTheTime : Prop :=
  ∀ (i : Instr) (s t : State), exec i s = .next t →
    t.lastOkMs = s.lastOkMs ∨
    (t.lastOkMs = s.nowMs % 2 ^ s.cfg.tw ∧
      ((∃ d, i = .reset d) ∨ ∃ p, t.results = .frameReady p :: s.results))

/-- A black display stays black, and every flush is of the black buffer, until a step applies a frame
(`43_watchdog.md` R147). -/
def Obligations.DisplayStaysBlackUntilAFrame : Prop :=
  ∀ s t : State, allBlack s → step s = .next t → (∀ p, t.results ≠ .frameReady p :: s.results) →
    allBlack t ∧ (t.flushes = s.flushes ∨ t.flushes = blackFlush s.cfg :: s.flushes)

/-- The race of the Watchdog and a frame, both due at one time: TICK first gives two flushes, FEED first gives
one and no blackout; in both orders the last flush shows the frame, every cell's triplet at its slot, and both end
with the same display and timestamp (`70_reset_and_hazards.md` R190). -/
def Obligations.RaceAdmitsBothOrders : Prop :=
  ∀ (s : State) (b : Byte) (now : Nat) (rest : List Input), s.started = true → legalConfig s.cfg = true →
    s.rxState = 6 → checksum (payload s) = b → elapsed s.cfg.tw (now % 2 ^ s.cfg.tw) s.lastOkMs > s.cfg.t →
    ∃ t u : State,
      runSteps 2 { s with pending := tickEvent now :: feedEvent b now :: rest } = .next t ∧
      runSteps 2 { s with pending := feedEvent b now :: tickEvent now :: rest } = .next u ∧
      t.flushes = flushOf t :: blackFlush s.cfg :: s.flushes ∧ u.flushes = flushOf u :: s.flushes ∧
      (∀ x y c, x < s.cfg.w → y < s.cfg.h → c < 3 →
        readByte t .pix (3 * serp s.cfg x y + c) = readByte s .pay (3 * (y * s.cfg.w + x) + c) ∧
        readByte u .pix (3 * serp s.cfg x y + c) = readByte s .pay (3 * (y * s.cfg.w + x) + c)) ∧
      pixels t = pixels u ∧ t.lastOkMs = now % 2 ^ s.cfg.tw ∧ u.lastOkMs = now % 2 ^ s.cfg.tw ∧
      t.rxState = 0 ∧ u.rxState = 0

/-! ### RESET -/

/-- RESET always completes: it hunts for sync, clears the counter, blackens every slot, stamps the time,
flushes nothing, drives Idle, and leaves the configuration and the ports alone. What it leaves in `frame_id`,
`declared_length` and `pay_buf` is not said: it is unspecified (`70_reset_and_hazards.md` R180, R182). -/
def Obligations.ResetEventRestoresTheBlock : Prop :=
  ∀ (s : State) (d : Byte), ∃ t : State, exec (.reset d) s = .next t ∧
    t.rxState = 0 ∧ t.bytesReceived = 0 ∧
    (∀ slot, slot < s.cfg.w * s.cfg.h → readPixel t slot = ⟨0, 0, 0⟩) ∧
    (∀ a, payloadLen s.cfg ≤ a → readByte t .pix a = readByte s .pix a) ∧
    t.lastOkMs = s.nowMs % 2 ^ s.cfg.tw ∧ t.flushes = s.flushes ∧ t.results = .idle :: s.results ∧
    t.cfg = s.cfg ∧ t.pending = s.pending ∧ t.nowMs = s.nowMs ∧
    t.crcOut = s.crcOut ∧ t.mapSlot = s.mapSlot

/-- Before the first RESET, FEED and TICK are refused; RESET ends that (`70_reset_and_hazards.md` R181; the field
that says whether a RESET has been performed is the model's, log 9). -/
def Obligations.EventsBeforeResetAreRefused : Prop :=
  (∀ (s : State) (b d : Byte), s.started = false →
    exec (.feed b) s = .refused .eventBeforeReset ∧ exec (.tick d) s = .refused .eventBeforeReset) ∧
  (∀ (s t : State) (d : Byte), exec (.reset d) s = .next t → t.started = true)

/-- The Watchdog counts from RESET: the first TICK blanks exactly when more than `T` ms have passed since it,
and nothing is flushed before (`70_reset_and_hazards.md` R180, R182). -/
def Obligations.WatchdogCountsFromReset : Prop :=
  ∀ (s : State) (r n : Nat) (rest : List Input), legalConfig s.cfg = true → r ≤ n → n < 2 ^ s.cfg.tw →
    s.pending = resetEvent r :: tickEvent n :: rest →
    ∃ t : State, runSteps 2 s = .next t ∧ allBlack t ∧
      (n - r ≤ s.cfg.t → t.flushes = s.flushes) ∧ (s.cfg.t < n - r → t.flushes = blackFlush s.cfg :: s.flushes)

/-- The state after reset holds the values the spec gives (`10_state.md` R21, R24, R26; its other fields are the
model's choice, logs 1, 4 and 5). -/
def Obligations.ResetStateHoldsTheSpecValues : Prop :=
  State.reset.rxState = 0 ∧ State.reset.bytesReceived = 0 ∧
  (∀ slot, readPixel State.reset slot = ⟨0, 0, 0⟩) ∧ State.reset.flushes = []

/-! ### The machine as a whole -/

/-- The four encodings of a result: `11` is never driven (`10_state.md` R31, `60_exceptions.md` R161). -/
def Obligations.ResultOutputsAreCoded : Prop :=
  evResult .idle = 0b00 ∧ (∀ p, evResult (.frameReady p) = 0b01 ∧ evPayload (.frameReady p) = some p) ∧
  evResult (.rejected .length) = 0b10 ∧ rejCause (.rejected .length) = some 0 ∧
  evResult (.rejected .crc) = 0b10 ∧ rejCause (.rejected .crc) = some 1 ∧ ∀ r, evResult r ≠ 0b11

/-- Every event that is performed drives exactly one result, and an event other than FEED drives Idle
(`10_state.md` R31). -/
def Obligations.EveryEventDrivesOneResult : Prop :=
  ∀ (s t : State) (w : EvtWord) (now : Nat) (rest : List Input), s.pending = .event w now :: rest →
    step s = .next t → ∃ r, t.results = r :: s.results ∧ (w &&& 0x300 ≠ 0 → r = .idle)

/-- The state after reset meets the invariant. That its configuration is legal and its timestamp below `2^TW` rests on
the model's choice of `Config.default` (log 1) and of a RESET at `now_ms = 0` (log 5). -/
def Obligations.InvariantHoldsAtReset : Prop := BlockInv State.reset

/-- Every step keeps the invariant: the receiver state is legal, the counter in range, the checksum reads only
bytes of its own frame, both memories canonical, the timestamp `TW` bits (`10_state.md` R35). -/
def Obligations.EveryStepKeepsTheInvariant : Prop :=
  ∀ s t : State, BlockInv s → step s = .next t → BlockInv t

/-- From a state that meets the invariant no run ends in a fault (`60_exceptions.md` R168, `20_memory.md` R43,
`30_encoding.md` R66). -/
def Obligations.NoRunFaults : Prop :=
  ∀ (n : Nat) (s : State) (f : Fault), BlockInv s → runSteps n s ≠ .fault f

/-- In a state that meets the invariant, an input is performed exactly when `60_exceptions.md` R169 does not
refuse it: no admitted input ever stops the block (R160; what `admitted` says of the configuration input is the
model's choice, log 11). -/
def Obligations.AdmittedInputsArePerformed : Prop :=
  ∀ (s : State) (inp : Input) (rest : List Input), BlockInv s → s.pending = inp :: rest →
    (admitted s inp = true → ∃ t, step s = .next t ∧ t.pending = rest) ∧
    (admitted s inp = false → ∃ r, step s = .refused r)

/-- What has been delivered to the sink or driven as a result is never changed by a later event, and a run of
`n` steps adds at most `n` of each (`20_memory.md` R55, `10_state.md` R31). -/
def Obligations.DeliveredOutputsNeverChange : Prop :=
  ∀ (n : Nat) (s t : State), runSteps n s = .next t →
    (∃ l, t.flushes = l ++ s.flushes ∧ l.length ≤ n) ∧ (∃ l, t.results = l ++ s.results ∧ l.length ≤ n)

/-- What the spec leaves unspecified is never observed: two states that agree on the rest run alike for ever,
with the same results, the same flushes and the same stops (`10_state.md` R22, R23, R25; so no claim rests on the
values logs 4, 6 and 7 name). -/
def Obligations.UnspecifiedValuesAreNeverObserved : Prop :=
  ∀ (n : Nat) (s t : State), SameVisible s t → Out.related SameVisible (runSteps n s) (runSteps n t)
end

