-- ==== Sys2Proof/Laws/Decode.lean ====
section
/-! SUPPORT. The fields of the words, and which row of the RXDEC table each receiver state and byte select. -/

namespace Sys2Proof

@[simp] theorem evtData_evtWord (k : BitVec 2) (d : Byte) : evtData (evtWord k d) = d := by
  have : ∀ k : BitVec 2, ∀ d : BitVec 8, evtData (evtWord k d) = d := by decide +kernel
  exact this k d

@[simp] theorem rxByte_rxWord (st : BitVec 3) (b : Byte) : rxByte (rxWord st b) = b := by
  have : ∀ st : BitVec 3, ∀ b : BitVec 8, rxByte (rxWord st b) = b := by decide +kernel
  exact this st b

@[simp] theorem rxCode_rxWord (st : BitVec 3) (b : Byte) : rxCode (rxWord st b) = st := by
  have : ∀ st : BitVec 3, ∀ b : BitVec 8, rxCode (rxWord st b) = st := by decide +kernel
  exact this st b

/-- Every RXDEC word is the word of its state code and its byte. -/
theorem rxWord_rxCode_rxByte (k : RxWord) : rxWord (rxCode k) (rxByte k) = k := by
  have : ∀ k : BitVec 11, rxWord (rxCode k) (rxByte k) = k := by decide +kernel
  exact this k

theorem rxWord_injective {st st' : BitVec 3} {b b' : Byte} (h : rxWord st b = rxWord st' b') :
    st = st' ∧ b = b' :=
  ⟨by simpa using congrArg rxCode h, by simpa using congrArg rxByte h⟩

theorem rxWord_or (st : BitVec 3) (b : Byte) :
    rxWord st b &&& 0x700 = rxWord st 0 := by
  have : ∀ st : BitVec 3, ∀ b : BitVec 8, (st ++ b : BitVec 11) &&& 0x700 = (st ++ (0 : BitVec 8) : BitVec 11) := by
    decide +kernel
  exact this st b

theorem rxWord_all (st : BitVec 3) (b : Byte) : rxWord st b &&& 0x7FF = rxWord st b := by
  have h : (0x7FF : BitVec 11) = BitVec.allOnes 11 := by decide
  rw [h, BitVec.and_allOnes]

theorem rxWord_masked_eq (st st' : BitVec 3) (b : Byte) : rxWord st b &&& 0x700 = rxWord st' 0 ↔ st = st' := by
  rw [rxWord_or]
  exact ⟨fun h => (rxWord_injective h).1, fun h => h ▸ rfl⟩

theorem rxWord_full_eq (st st' : BitVec 3) (b b' : Byte) :
    rxWord st b &&& 0x7FF = rxWord st' b' ↔ st = st' ∧ b = b' := by
  rw [rxWord_all]
  exact ⟨rxWord_injective, fun h => h.1 ▸ h.2 ▸ rfl⟩

/-- The row that a receiver state and a byte select, by state code and byte alone. -/
theorem decodeRxdec_rxWord (st : BitVec 3) (b : Byte) :
    decodeRxdec (rxWord st b) =
      if st = 0 then (if b = sync1 then .sync1Hit else .sync1Miss b)
      else if st = 1 then (if b = sync2 then .sync2Hit else .sync2Miss b)
      else if st = 2 then .frameId b
      else if st = 3 then .lenLow b
      else if st = 4 then .lenHigh b
      else if st = 5 then .payload b
      else if st = 6 then .crc b
      else .illegal b := by
  have m1 : (0x0AA : BitVec 11) = rxWord 0 sync1 := by decide
  have m2 : (0x000 : BitVec 11) = rxWord 0 0 := by decide
  have m3 : (0x155 : BitVec 11) = rxWord 1 sync2 := by decide
  have m4 : (0x100 : BitVec 11) = rxWord 1 0 := by decide
  have m5 : (0x200 : BitVec 11) = rxWord 2 0 := by decide
  have m6 : (0x300 : BitVec 11) = rxWord 3 0 := by decide
  have m7 : (0x400 : BitVec 11) = rxWord 4 0 := by decide
  have m8 : (0x500 : BitVec 11) = rxWord 5 0 := by decide
  have m9 : (0x600 : BitVec 11) = rxWord 6 0 := by decide
  unfold decodeRxdec
  simp only [m1, m2, m3, m4, m5, m6, m7, m8, m9, rxWord_masked_eq, rxWord_full_eq, rxByte_rxWord]
  by_cases h0 : st = 0#3
  · subst h0; by_cases hb : b = sync1 <;> simp [hb]
  · by_cases h1 : st = 1#3
    · subst h1; by_cases hb : b = sync2 <;> simp [hb]
    · simp [h0, h1]

/-- The event that a kind and its data bits spell. -/
theorem decodeEvt_evtWord (k : BitVec 2) (d : Byte) :
    decodeEvt (evtWord k d) =
      if k = 0 then .feed d else if k = 1 then .tick d else if k = 2 then .reset d else .evtReserved d := by
  have hm : ∀ k : BitVec 2, ∀ d : BitVec 8, (k ++ d : BitVec 10) &&& 0x300 = (k ++ (0 : BitVec 8) : BitVec 10) := by
    decide +kernel
  have hk : ∀ k : BitVec 2, ((k ++ (0 : BitVec 8) : BitVec 10) = 0x000 ↔ k = 0) ∧
      ((k ++ (0 : BitVec 8) : BitVec 10) = 0x100 ↔ k = 1) ∧
      ((k ++ (0 : BitVec 8) : BitVec 10) = 0x200 ↔ k = 2) := by decide
  unfold decodeEvt
  rw [evtData_evtWord, show evtWord k d &&& 0x300 = (k ++ (0 : BitVec 8) : BitVec 10) from hm k d]
  obtain ⟨h0, h1, h2⟩ := hk k
  simp only [h0, h1, h2]

@[simp] theorem decode_feedWord (b : Byte) : decode (.evt (evtWord 0 b)) = .feed b := by
  simp [decode, decodeEvt_evtWord]

@[simp] theorem decode_tickWord (d : Byte) : decode (.evt (evtWord 1 d)) = .tick d := by
  simp [decode, decodeEvt_evtWord]

@[simp] theorem decode_resetWord (d : Byte) : decode (.evt (evtWord 2 d)) = .reset d := by
  simp [decode, decodeEvt_evtWord]

end Sys2Proof
end

