-- ==== Sys2Proof/Laws/State.lean ====
section
/-! SUPPORT. One lemma for each field of `State` and each update of `Machine/Ops.lean`, so that no proof unfolds
a record update. -/

namespace Sys2Proof.Machine

variable (s : State)

@[simp] theorem setRxState_cfg (x : BitVec 3) : (setRxState x s).cfg = s.cfg := rfl
@[simp] theorem setRxState_rxState (x : BitVec 3) : (setRxState x s).rxState = x := rfl
@[simp] theorem setRxState_frameId (x : BitVec 3) : (setRxState x s).frameId = s.frameId := rfl
@[simp] theorem setRxState_declaredLength (x : BitVec 3) : (setRxState x s).declaredLength = s.declaredLength := rfl
@[simp] theorem setRxState_bytesReceived (x : BitVec 3) : (setRxState x s).bytesReceived = s.bytesReceived := rfl
@[simp] theorem setRxState_pay (x : BitVec 3) : (setRxState x s).pay = s.pay := rfl
@[simp] theorem setRxState_pix (x : BitVec 3) : (setRxState x s).pix = s.pix := rfl
@[simp] theorem setRxState_lastOkMs (x : BitVec 3) : (setRxState x s).lastOkMs = s.lastOkMs := rfl
@[simp] theorem setRxState_started (x : BitVec 3) : (setRxState x s).started = s.started := rfl
@[simp] theorem setRxState_epoch (x : BitVec 3) : (setRxState x s).epoch = s.epoch := rfl
@[simp] theorem setRxState_nowMs (x : BitVec 3) : (setRxState x s).nowMs = s.nowMs := rfl
@[simp] theorem setRxState_pending (x : BitVec 3) : (setRxState x s).pending = s.pending := rfl
@[simp] theorem setRxState_results (x : BitVec 3) : (setRxState x s).results = s.results := rfl
@[simp] theorem setRxState_flushes (x : BitVec 3) : (setRxState x s).flushes = s.flushes := rfl
@[simp] theorem setRxState_crcOut (x : BitVec 3) : (setRxState x s).crcOut = s.crcOut := rfl
@[simp] theorem setRxState_mapSlot (x : BitVec 3) : (setRxState x s).mapSlot = s.mapSlot := rfl

@[simp] theorem setFrameId_cfg (x : Byte) : (setFrameId x s).cfg = s.cfg := rfl
@[simp] theorem setFrameId_rxState (x : Byte) : (setFrameId x s).rxState = s.rxState := rfl
@[simp] theorem setFrameId_frameId (x : Byte) : (setFrameId x s).frameId = x := rfl
@[simp] theorem setFrameId_declaredLength (x : Byte) : (setFrameId x s).declaredLength = s.declaredLength := rfl
@[simp] theorem setFrameId_bytesReceived (x : Byte) : (setFrameId x s).bytesReceived = s.bytesReceived := rfl
@[simp] theorem setFrameId_pay (x : Byte) : (setFrameId x s).pay = s.pay := rfl
@[simp] theorem setFrameId_pix (x : Byte) : (setFrameId x s).pix = s.pix := rfl
@[simp] theorem setFrameId_lastOkMs (x : Byte) : (setFrameId x s).lastOkMs = s.lastOkMs := rfl
@[simp] theorem setFrameId_started (x : Byte) : (setFrameId x s).started = s.started := rfl
@[simp] theorem setFrameId_epoch (x : Byte) : (setFrameId x s).epoch = s.epoch := rfl
@[simp] theorem setFrameId_nowMs (x : Byte) : (setFrameId x s).nowMs = s.nowMs := rfl
@[simp] theorem setFrameId_pending (x : Byte) : (setFrameId x s).pending = s.pending := rfl
@[simp] theorem setFrameId_results (x : Byte) : (setFrameId x s).results = s.results := rfl
@[simp] theorem setFrameId_flushes (x : Byte) : (setFrameId x s).flushes = s.flushes := rfl
@[simp] theorem setFrameId_crcOut (x : Byte) : (setFrameId x s).crcOut = s.crcOut := rfl
@[simp] theorem setFrameId_mapSlot (x : Byte) : (setFrameId x s).mapSlot = s.mapSlot := rfl

@[simp] theorem setDeclaredLength_cfg (x : LenReg) : (setDeclaredLength x s).cfg = s.cfg := rfl
@[simp] theorem setDeclaredLength_rxState (x : LenReg) : (setDeclaredLength x s).rxState = s.rxState := rfl
@[simp] theorem setDeclaredLength_frameId (x : LenReg) : (setDeclaredLength x s).frameId = s.frameId := rfl
@[simp] theorem setDeclaredLength_declaredLength (x : LenReg) : (setDeclaredLength x s).declaredLength = x := rfl
@[simp] theorem setDeclaredLength_bytesReceived (x : LenReg) : (setDeclaredLength x s).bytesReceived = s.bytesReceived := rfl
@[simp] theorem setDeclaredLength_pay (x : LenReg) : (setDeclaredLength x s).pay = s.pay := rfl
@[simp] theorem setDeclaredLength_pix (x : LenReg) : (setDeclaredLength x s).pix = s.pix := rfl
@[simp] theorem setDeclaredLength_lastOkMs (x : LenReg) : (setDeclaredLength x s).lastOkMs = s.lastOkMs := rfl
@[simp] theorem setDeclaredLength_started (x : LenReg) : (setDeclaredLength x s).started = s.started := rfl
@[simp] theorem setDeclaredLength_epoch (x : LenReg) : (setDeclaredLength x s).epoch = s.epoch := rfl
@[simp] theorem setDeclaredLength_nowMs (x : LenReg) : (setDeclaredLength x s).nowMs = s.nowMs := rfl
@[simp] theorem setDeclaredLength_pending (x : LenReg) : (setDeclaredLength x s).pending = s.pending := rfl
@[simp] theorem setDeclaredLength_results (x : LenReg) : (setDeclaredLength x s).results = s.results := rfl
@[simp] theorem setDeclaredLength_flushes (x : LenReg) : (setDeclaredLength x s).flushes = s.flushes := rfl
@[simp] theorem setDeclaredLength_crcOut (x : LenReg) : (setDeclaredLength x s).crcOut = s.crcOut := rfl
@[simp] theorem setDeclaredLength_mapSlot (x : LenReg) : (setDeclaredLength x s).mapSlot = s.mapSlot := rfl

@[simp] theorem setBytesReceived_cfg (x : BitVec 16) : (setBytesReceived x s).cfg = s.cfg := rfl
@[simp] theorem setBytesReceived_rxState (x : BitVec 16) : (setBytesReceived x s).rxState = s.rxState := rfl
@[simp] theorem setBytesReceived_frameId (x : BitVec 16) : (setBytesReceived x s).frameId = s.frameId := rfl
@[simp] theorem setBytesReceived_declaredLength (x : BitVec 16) : (setBytesReceived x s).declaredLength = s.declaredLength := rfl
@[simp] theorem setBytesReceived_bytesReceived (x : BitVec 16) : (setBytesReceived x s).bytesReceived = x := rfl
@[simp] theorem setBytesReceived_pay (x : BitVec 16) : (setBytesReceived x s).pay = s.pay := rfl
@[simp] theorem setBytesReceived_pix (x : BitVec 16) : (setBytesReceived x s).pix = s.pix := rfl
@[simp] theorem setBytesReceived_lastOkMs (x : BitVec 16) : (setBytesReceived x s).lastOkMs = s.lastOkMs := rfl
@[simp] theorem setBytesReceived_started (x : BitVec 16) : (setBytesReceived x s).started = s.started := rfl
@[simp] theorem setBytesReceived_epoch (x : BitVec 16) : (setBytesReceived x s).epoch = s.epoch := rfl
@[simp] theorem setBytesReceived_nowMs (x : BitVec 16) : (setBytesReceived x s).nowMs = s.nowMs := rfl
@[simp] theorem setBytesReceived_pending (x : BitVec 16) : (setBytesReceived x s).pending = s.pending := rfl
@[simp] theorem setBytesReceived_results (x : BitVec 16) : (setBytesReceived x s).results = s.results := rfl
@[simp] theorem setBytesReceived_flushes (x : BitVec 16) : (setBytesReceived x s).flushes = s.flushes := rfl
@[simp] theorem setBytesReceived_crcOut (x : BitVec 16) : (setBytesReceived x s).crcOut = s.crcOut := rfl
@[simp] theorem setBytesReceived_mapSlot (x : BitVec 16) : (setBytesReceived x s).mapSlot = s.mapSlot := rfl

@[simp] theorem setPay_cfg (x : List Host.Cell) : (setPay x s).cfg = s.cfg := rfl
@[simp] theorem setPay_rxState (x : List Host.Cell) : (setPay x s).rxState = s.rxState := rfl
@[simp] theorem setPay_frameId (x : List Host.Cell) : (setPay x s).frameId = s.frameId := rfl
@[simp] theorem setPay_declaredLength (x : List Host.Cell) : (setPay x s).declaredLength = s.declaredLength := rfl
@[simp] theorem setPay_bytesReceived (x : List Host.Cell) : (setPay x s).bytesReceived = s.bytesReceived := rfl
@[simp] theorem setPay_pay (x : List Host.Cell) : (setPay x s).pay = x := rfl
@[simp] theorem setPay_pix (x : List Host.Cell) : (setPay x s).pix = s.pix := rfl
@[simp] theorem setPay_lastOkMs (x : List Host.Cell) : (setPay x s).lastOkMs = s.lastOkMs := rfl
@[simp] theorem setPay_started (x : List Host.Cell) : (setPay x s).started = s.started := rfl
@[simp] theorem setPay_epoch (x : List Host.Cell) : (setPay x s).epoch = s.epoch := rfl
@[simp] theorem setPay_nowMs (x : List Host.Cell) : (setPay x s).nowMs = s.nowMs := rfl
@[simp] theorem setPay_pending (x : List Host.Cell) : (setPay x s).pending = s.pending := rfl
@[simp] theorem setPay_results (x : List Host.Cell) : (setPay x s).results = s.results := rfl
@[simp] theorem setPay_flushes (x : List Host.Cell) : (setPay x s).flushes = s.flushes := rfl
@[simp] theorem setPay_crcOut (x : List Host.Cell) : (setPay x s).crcOut = s.crcOut := rfl
@[simp] theorem setPay_mapSlot (x : List Host.Cell) : (setPay x s).mapSlot = s.mapSlot := rfl

@[simp] theorem setPix_cfg (x : List Host.Cell) : (setPix x s).cfg = s.cfg := rfl
@[simp] theorem setPix_rxState (x : List Host.Cell) : (setPix x s).rxState = s.rxState := rfl
@[simp] theorem setPix_frameId (x : List Host.Cell) : (setPix x s).frameId = s.frameId := rfl
@[simp] theorem setPix_declaredLength (x : List Host.Cell) : (setPix x s).declaredLength = s.declaredLength := rfl
@[simp] theorem setPix_bytesReceived (x : List Host.Cell) : (setPix x s).bytesReceived = s.bytesReceived := rfl
@[simp] theorem setPix_pay (x : List Host.Cell) : (setPix x s).pay = s.pay := rfl
@[simp] theorem setPix_pix (x : List Host.Cell) : (setPix x s).pix = x := rfl
@[simp] theorem setPix_lastOkMs (x : List Host.Cell) : (setPix x s).lastOkMs = s.lastOkMs := rfl
@[simp] theorem setPix_started (x : List Host.Cell) : (setPix x s).started = s.started := rfl
@[simp] theorem setPix_epoch (x : List Host.Cell) : (setPix x s).epoch = s.epoch := rfl
@[simp] theorem setPix_nowMs (x : List Host.Cell) : (setPix x s).nowMs = s.nowMs := rfl
@[simp] theorem setPix_pending (x : List Host.Cell) : (setPix x s).pending = s.pending := rfl
@[simp] theorem setPix_results (x : List Host.Cell) : (setPix x s).results = s.results := rfl
@[simp] theorem setPix_flushes (x : List Host.Cell) : (setPix x s).flushes = s.flushes := rfl
@[simp] theorem setPix_crcOut (x : List Host.Cell) : (setPix x s).crcOut = s.crcOut := rfl
@[simp] theorem setPix_mapSlot (x : List Host.Cell) : (setPix x s).mapSlot = s.mapSlot := rfl

@[simp] theorem stampLastOk_cfg : (stampLastOk s).cfg = s.cfg := rfl
@[simp] theorem stampLastOk_rxState : (stampLastOk s).rxState = s.rxState := rfl
@[simp] theorem stampLastOk_frameId : (stampLastOk s).frameId = s.frameId := rfl
@[simp] theorem stampLastOk_declaredLength : (stampLastOk s).declaredLength = s.declaredLength := rfl
@[simp] theorem stampLastOk_bytesReceived : (stampLastOk s).bytesReceived = s.bytesReceived := rfl
@[simp] theorem stampLastOk_pay : (stampLastOk s).pay = s.pay := rfl
@[simp] theorem stampLastOk_pix : (stampLastOk s).pix = s.pix := rfl
@[simp] theorem stampLastOk_lastOkMs : (stampLastOk s).lastOkMs = sampledNow s := rfl
@[simp] theorem stampLastOk_started : (stampLastOk s).started = s.started := rfl
@[simp] theorem stampLastOk_epoch : (stampLastOk s).epoch = s.epoch := rfl
@[simp] theorem stampLastOk_nowMs : (stampLastOk s).nowMs = s.nowMs := rfl
@[simp] theorem stampLastOk_pending : (stampLastOk s).pending = s.pending := rfl
@[simp] theorem stampLastOk_results : (stampLastOk s).results = s.results := rfl
@[simp] theorem stampLastOk_flushes : (stampLastOk s).flushes = s.flushes := rfl
@[simp] theorem stampLastOk_crcOut : (stampLastOk s).crcOut = s.crcOut := rfl
@[simp] theorem stampLastOk_mapSlot : (stampLastOk s).mapSlot = s.mapSlot := rfl

@[simp] theorem forgetUnspecified_cfg : (forgetUnspecified s).cfg = s.cfg := rfl
@[simp] theorem forgetUnspecified_rxState : (forgetUnspecified s).rxState = s.rxState := rfl
@[simp] theorem forgetUnspecified_frameId : (forgetUnspecified s).frameId = Config.freeFrameId (s.epoch + 1) := rfl
@[simp] theorem forgetUnspecified_bytesReceived : (forgetUnspecified s).bytesReceived = s.bytesReceived := rfl
@[simp] theorem forgetUnspecified_pay : (forgetUnspecified s).pay = [] := rfl
@[simp] theorem forgetUnspecified_pix : (forgetUnspecified s).pix = s.pix := rfl
@[simp] theorem forgetUnspecified_lastOkMs : (forgetUnspecified s).lastOkMs = s.lastOkMs := rfl
@[simp] theorem forgetUnspecified_started : (forgetUnspecified s).started = s.started := rfl
@[simp] theorem forgetUnspecified_epoch : (forgetUnspecified s).epoch = s.epoch + 1 := rfl
@[simp] theorem forgetUnspecified_nowMs : (forgetUnspecified s).nowMs = s.nowMs := rfl
@[simp] theorem forgetUnspecified_pending : (forgetUnspecified s).pending = s.pending := rfl
@[simp] theorem forgetUnspecified_results : (forgetUnspecified s).results = s.results := rfl
@[simp] theorem forgetUnspecified_flushes : (forgetUnspecified s).flushes = s.flushes := rfl
@[simp] theorem forgetUnspecified_crcOut : (forgetUnspecified s).crcOut = s.crcOut := rfl
@[simp] theorem forgetUnspecified_mapSlot : (forgetUnspecified s).mapSlot = s.mapSlot := rfl

@[simp] theorem markStarted_cfg : (markStarted s).cfg = s.cfg := rfl
@[simp] theorem markStarted_rxState : (markStarted s).rxState = s.rxState := rfl
@[simp] theorem markStarted_frameId : (markStarted s).frameId = s.frameId := rfl
@[simp] theorem markStarted_declaredLength : (markStarted s).declaredLength = s.declaredLength := rfl
@[simp] theorem markStarted_bytesReceived : (markStarted s).bytesReceived = s.bytesReceived := rfl
@[simp] theorem markStarted_pay : (markStarted s).pay = s.pay := rfl
@[simp] theorem markStarted_pix : (markStarted s).pix = s.pix := rfl
@[simp] theorem markStarted_lastOkMs : (markStarted s).lastOkMs = s.lastOkMs := rfl
@[simp] theorem markStarted_started : (markStarted s).started = true := rfl
@[simp] theorem markStarted_epoch : (markStarted s).epoch = s.epoch := rfl
@[simp] theorem markStarted_nowMs : (markStarted s).nowMs = s.nowMs := rfl
@[simp] theorem markStarted_pending : (markStarted s).pending = s.pending := rfl
@[simp] theorem markStarted_results : (markStarted s).results = s.results := rfl
@[simp] theorem markStarted_flushes : (markStarted s).flushes = s.flushes := rfl
@[simp] theorem markStarted_crcOut : (markStarted s).crcOut = s.crcOut := rfl
@[simp] theorem markStarted_mapSlot : (markStarted s).mapSlot = s.mapSlot := rfl

@[simp] theorem emit_cfg (x : Result) : (emit x s).cfg = s.cfg := rfl
@[simp] theorem emit_rxState (x : Result) : (emit x s).rxState = s.rxState := rfl
@[simp] theorem emit_frameId (x : Result) : (emit x s).frameId = s.frameId := rfl
@[simp] theorem emit_declaredLength (x : Result) : (emit x s).declaredLength = s.declaredLength := rfl
@[simp] theorem emit_bytesReceived (x : Result) : (emit x s).bytesReceived = s.bytesReceived := rfl
@[simp] theorem emit_pay (x : Result) : (emit x s).pay = s.pay := rfl
@[simp] theorem emit_pix (x : Result) : (emit x s).pix = s.pix := rfl
@[simp] theorem emit_lastOkMs (x : Result) : (emit x s).lastOkMs = s.lastOkMs := rfl
@[simp] theorem emit_started (x : Result) : (emit x s).started = s.started := rfl
@[simp] theorem emit_epoch (x : Result) : (emit x s).epoch = s.epoch := rfl
@[simp] theorem emit_nowMs (x : Result) : (emit x s).nowMs = s.nowMs := rfl
@[simp] theorem emit_pending (x : Result) : (emit x s).pending = s.pending := rfl
@[simp] theorem emit_results (x : Result) : (emit x s).results = x :: s.results := rfl
@[simp] theorem emit_flushes (x : Result) : (emit x s).flushes = s.flushes := rfl
@[simp] theorem emit_crcOut (x : Result) : (emit x s).crcOut = s.crcOut := rfl
@[simp] theorem emit_mapSlot (x : Result) : (emit x s).mapSlot = s.mapSlot := rfl

@[simp] theorem flush_cfg : (flush s).cfg = s.cfg := rfl
@[simp] theorem flush_rxState : (flush s).rxState = s.rxState := rfl
@[simp] theorem flush_frameId : (flush s).frameId = s.frameId := rfl
@[simp] theorem flush_declaredLength : (flush s).declaredLength = s.declaredLength := rfl
@[simp] theorem flush_bytesReceived : (flush s).bytesReceived = s.bytesReceived := rfl
@[simp] theorem flush_pay : (flush s).pay = s.pay := rfl
@[simp] theorem flush_pix : (flush s).pix = s.pix := rfl
@[simp] theorem flush_lastOkMs : (flush s).lastOkMs = s.lastOkMs := rfl
@[simp] theorem flush_started : (flush s).started = s.started := rfl
@[simp] theorem flush_epoch : (flush s).epoch = s.epoch := rfl
@[simp] theorem flush_nowMs : (flush s).nowMs = s.nowMs := rfl
@[simp] theorem flush_pending : (flush s).pending = s.pending := rfl
@[simp] theorem flush_results : (flush s).results = s.results := rfl
@[simp] theorem flush_flushes : (flush s).flushes = flushOf s :: s.flushes := rfl
@[simp] theorem flush_crcOut : (flush s).crcOut = s.crcOut := rfl
@[simp] theorem flush_mapSlot : (flush s).mapSlot = s.mapSlot := rfl

@[simp] theorem driveCrcOut_cfg (x : Byte) : (driveCrcOut x s).cfg = s.cfg := rfl
@[simp] theorem driveCrcOut_rxState (x : Byte) : (driveCrcOut x s).rxState = s.rxState := rfl
@[simp] theorem driveCrcOut_frameId (x : Byte) : (driveCrcOut x s).frameId = s.frameId := rfl
@[simp] theorem driveCrcOut_declaredLength (x : Byte) : (driveCrcOut x s).declaredLength = s.declaredLength := rfl
@[simp] theorem driveCrcOut_bytesReceived (x : Byte) : (driveCrcOut x s).bytesReceived = s.bytesReceived := rfl
@[simp] theorem driveCrcOut_pay (x : Byte) : (driveCrcOut x s).pay = s.pay := rfl
@[simp] theorem driveCrcOut_pix (x : Byte) : (driveCrcOut x s).pix = s.pix := rfl
@[simp] theorem driveCrcOut_lastOkMs (x : Byte) : (driveCrcOut x s).lastOkMs = s.lastOkMs := rfl
@[simp] theorem driveCrcOut_started (x : Byte) : (driveCrcOut x s).started = s.started := rfl
@[simp] theorem driveCrcOut_epoch (x : Byte) : (driveCrcOut x s).epoch = s.epoch := rfl
@[simp] theorem driveCrcOut_nowMs (x : Byte) : (driveCrcOut x s).nowMs = s.nowMs := rfl
@[simp] theorem driveCrcOut_pending (x : Byte) : (driveCrcOut x s).pending = s.pending := rfl
@[simp] theorem driveCrcOut_results (x : Byte) : (driveCrcOut x s).results = s.results := rfl
@[simp] theorem driveCrcOut_flushes (x : Byte) : (driveCrcOut x s).flushes = s.flushes := rfl
@[simp] theorem driveCrcOut_crcOut (x : Byte) : (driveCrcOut x s).crcOut = x := rfl
@[simp] theorem driveCrcOut_mapSlot (x : Byte) : (driveCrcOut x s).mapSlot = s.mapSlot := rfl

@[simp] theorem driveMapSlot_cfg (x : Nat) : (driveMapSlot x s).cfg = s.cfg := rfl
@[simp] theorem driveMapSlot_rxState (x : Nat) : (driveMapSlot x s).rxState = s.rxState := rfl
@[simp] theorem driveMapSlot_frameId (x : Nat) : (driveMapSlot x s).frameId = s.frameId := rfl
@[simp] theorem driveMapSlot_declaredLength (x : Nat) : (driveMapSlot x s).declaredLength = s.declaredLength := rfl
@[simp] theorem driveMapSlot_bytesReceived (x : Nat) : (driveMapSlot x s).bytesReceived = s.bytesReceived := rfl
@[simp] theorem driveMapSlot_pay (x : Nat) : (driveMapSlot x s).pay = s.pay := rfl
@[simp] theorem driveMapSlot_pix (x : Nat) : (driveMapSlot x s).pix = s.pix := rfl
@[simp] theorem driveMapSlot_lastOkMs (x : Nat) : (driveMapSlot x s).lastOkMs = s.lastOkMs := rfl
@[simp] theorem driveMapSlot_started (x : Nat) : (driveMapSlot x s).started = s.started := rfl
@[simp] theorem driveMapSlot_epoch (x : Nat) : (driveMapSlot x s).epoch = s.epoch := rfl
@[simp] theorem driveMapSlot_nowMs (x : Nat) : (driveMapSlot x s).nowMs = s.nowMs := rfl
@[simp] theorem driveMapSlot_pending (x : Nat) : (driveMapSlot x s).pending = s.pending := rfl
@[simp] theorem driveMapSlot_results (x : Nat) : (driveMapSlot x s).results = s.results := rfl
@[simp] theorem driveMapSlot_flushes (x : Nat) : (driveMapSlot x s).flushes = s.flushes := rfl
@[simp] theorem driveMapSlot_crcOut (x : Nat) : (driveMapSlot x s).crcOut = s.crcOut := rfl
@[simp] theorem driveMapSlot_mapSlot (x : Nat) : (driveMapSlot x s).mapSlot = x := rfl

@[simp] theorem reject_cfg (x : Cause) : (reject x s).cfg = s.cfg := rfl
@[simp] theorem reject_rxState (x : Cause) : (reject x s).rxState = 0 := rfl
@[simp] theorem reject_frameId (x : Cause) : (reject x s).frameId = s.frameId := rfl
@[simp] theorem reject_declaredLength (x : Cause) : (reject x s).declaredLength = s.declaredLength := rfl
@[simp] theorem reject_bytesReceived (x : Cause) : (reject x s).bytesReceived = s.bytesReceived := rfl
@[simp] theorem reject_pay (x : Cause) : (reject x s).pay = s.pay := rfl
@[simp] theorem reject_pix (x : Cause) : (reject x s).pix = s.pix := rfl
@[simp] theorem reject_lastOkMs (x : Cause) : (reject x s).lastOkMs = s.lastOkMs := rfl
@[simp] theorem reject_started (x : Cause) : (reject x s).started = s.started := rfl
@[simp] theorem reject_epoch (x : Cause) : (reject x s).epoch = s.epoch := rfl
@[simp] theorem reject_nowMs (x : Cause) : (reject x s).nowMs = s.nowMs := rfl
@[simp] theorem reject_pending (x : Cause) : (reject x s).pending = s.pending := rfl
@[simp] theorem reject_results (x : Cause) : (reject x s).results = .rejected x :: s.results := rfl
@[simp] theorem reject_flushes (x : Cause) : (reject x s).flushes = s.flushes := rfl
@[simp] theorem reject_crcOut (x : Cause) : (reject x s).crcOut = s.crcOut := rfl
@[simp] theorem reject_mapSlot (x : Cause) : (reject x s).mapSlot = s.mapSlot := rfl

end Sys2Proof.Machine
end

