-- ==== Sys2Proof/Laws/Memory.lean ====
section
/-! SUPPORT. What one store does to every later read, and that every memory operation keeps the canonical
form. -/

namespace Sys2Proof.Machine

theorem lookup_eraseCell (m : List Host.Cell) (a b : Nat) :
    lookup (eraseCell m a) b = if b = a then none else lookup m b := by
  induction m with
  | nil => simp [eraseCell, lookup]
  | cons c m ih =>
    obtain ⟨k, v⟩ := c
    by_cases hk : k = a
    · subst hk
      by_cases hb : b = k
      · subst hb; simpa [eraseCell] using ih
      · simp [eraseCell, ih, hb, lookup, Ne.symm hb]
    · by_cases hkb : k = b
      · subst hkb; simp [eraseCell, hk, lookup]
      · simp [eraseCell, hk, lookup, hkb, ih]

theorem lookup_insertCell (m : List Host.Cell) (a b : Nat) (v : Byte) :
    lookup (insertCell m a v) b = if b = a then some v else lookup m b := by
  induction m with
  | nil => simp [insertCell, lookup, eq_comm]
  | cons c m ih =>
    obtain ⟨k, u⟩ := c
    unfold insertCell
    split
    · by_cases h : b = a
      · simp [lookup, h]
      · simp [lookup, h, Ne.symm h]
    · split
      · subst_vars
        by_cases h : b = k
        · simp [lookup, h]
        · simp [lookup, h, Ne.symm h]
      · by_cases h : k = b
        · subst h
          have : ¬k = a := by omega
          simp [lookup, this]
        · simp [lookup, h, ih]

/-- What is listed after a store: the byte itself, or nothing where the byte is what unlisted addresses read
as. -/
theorem lookup_storeByte (sp : Space) (m : List Host.Cell) (a b : Nat) (v : Byte) :
    lookup (storeByte sp m a v) b =
      if b = a then (if isUnlistedByte sp v then none else some v) else lookup m b := by
  unfold storeByte
  split <;> simp_all [lookup_eraseCell, lookup_insertCell]

@[simp] theorem cellsOf_pay (s : State) : cellsOf s .pay = s.pay := rfl
@[simp] theorem cellsOf_pix (s : State) : cellsOf s .pix = s.pix := rfl

theorem readByte_eq (s : State) (sp : Space) (a : Nat) :
    readByte s sp a = (lookup (cellsOf s sp) a).getD (unlisted s.epoch sp a) := by
  unfold readByte; cases lookup (cellsOf s sp) a <;> rfl

/-- A read depends on the cells of its space and on the epoch alone. -/
theorem readByte_congr {s t : State} {sp : Space} (h : cellsOf t sp = cellsOf s sp) (he : t.epoch = s.epoch)
    (a : Nat) : readByte t sp a = readByte s sp a := by
  rw [readByte_eq, readByte_eq, h, he]

theorem readPix_congr {s t : State} (h : t.pix = s.pix) (a : Nat) : readByte t .pix a = readByte s .pix a := by
  simp [readByte_eq, h, unlisted]

theorem readPixel_congr {s t : State} (h : t.pix = s.pix) (slot : Nat) : readPixel t slot = readPixel s slot := by
  simp [readPixel, readPix_congr h]

theorem payload_congr {s t : State} (h : t.pay = s.pay) (he : t.epoch = s.epoch) (hc : t.cfg = s.cfg) :
    payload t = payload s := by
  have : ∀ a, readByte t .pay a = readByte s .pay a := readByte_congr (by simpa using h) he
  simp [payload, hc, this]

/-- Read after a store in PAY: the stored byte at its address, every other address as before. -/
theorem readByte_storePay (s : State) (i a : Nat) (v : Byte) :
    readByte (setPay (storeByte .pay s.pay i v) s) .pay a = if a = i then v else readByte s .pay a := by
  by_cases h : a = i <;> simp [readByte_eq, lookup_storeByte, isUnlistedByte, h]

/-- Read after a store in PIX: the stored byte at its address, every other address as before. -/
theorem readByte_storePix (s : State) (i a : Nat) (v : Byte) :
    readByte (setPix (storeByte .pix s.pix i v) s) .pix a = if a = i then v else readByte s .pix a := by
  by_cases h : a = i
  · subst h
    by_cases hv : v = 0#8 <;> simp [readByte_eq, lookup_storeByte, isUnlistedByte, unlisted, hv]
  · simp [readByte_eq, lookup_storeByte, h]

@[simp] theorem readByte_setPix_pay (s : State) (m : List Host.Cell) (a : Nat) :
    readByte (setPix m s) .pay a = readByte s .pay a := rfl

@[simp] theorem readByte_setPay_pix (s : State) (m : List Host.Cell) (a : Nat) :
    readByte (setPay m s) .pix a = readByte s .pix a := rfl

/-- The byte of a pixel that a channel number names: 0 red, 1 green, 2 blue. -/
def channelOf (px : Rgb) (c : Nat) : Byte := if c = 0 then px.r else if c = 1 then px.g else px.b

/-- Read after storing a triplet: the three bytes of its slot, every other address as before. -/
theorem readByte_storePixel (s : State) (slot a : Nat) (px : Rgb) :
    readByte (setPix (storePixel s.pix slot px) s) .pix a =
      if a / 3 = slot then channelOf px (a % 3) else readByte s .pix a := by
  have h1 := readByte_storePix s (3 * slot)
  have h2 := readByte_storePix (setPix (storeByte .pix s.pix (3 * slot) px.r) s) (3 * slot + 1)
  have h3 := readByte_storePix (setPix (storeByte .pix (storeByte .pix s.pix (3 * slot) px.r) (3 * slot + 1) px.g) s)
    (3 * slot + 2)
  have e : setPix (storePixel s.pix slot px) s =
      setPix (storeByte .pix (storeByte .pix (storeByte .pix s.pix (3 * slot) px.r) (3 * slot + 1) px.g)
        (3 * slot + 2) px.b) (setPix (storeByte .pix (storeByte .pix s.pix (3 * slot) px.r) (3 * slot + 1) px.g) s) :=
    rfl
  have e2 : setPix (storeByte .pix (storeByte .pix s.pix (3 * slot) px.r) (3 * slot + 1) px.g) s =
      setPix (storeByte .pix (storeByte .pix s.pix (3 * slot) px.r) (3 * slot + 1) px.g)
        (setPix (storeByte .pix s.pix (3 * slot) px.r) s) := rfl
  have hr : readByte (setPix (storePixel s.pix slot px) s) .pix a =
      if a = 3 * slot + 2 then px.b else if a = 3 * slot + 1 then px.g else if a = 3 * slot then px.r
        else readByte s .pix a := by
    rw [e]
    have := h3 a px.b
    simp only [setPix_pix] at this
    rw [this]
    have := h2 a px.g
    simp only [setPix_pix] at this
    rw [e2, this, h1 a px.r]
  rw [hr]
  by_cases hs : a / 3 = slot
  · have : a % 3 = 0 ∨ a % 3 = 1 ∨ a % 3 = 2 := by omega
    rcases this with h | h | h
    · rw [if_neg (by omega), if_neg (by omega), if_pos (by omega)]; simp [hs, h, channelOf]
    · rw [if_neg (by omega), if_pos (by omega)]; simp [hs, h, channelOf]
    · rw [if_pos (by omega)]; simp [hs, h, channelOf]
  · rw [if_neg (by omega), if_neg (by omega), if_neg (by omega), if_neg hs]

theorem readPixel_storePixel (s : State) (slot k : Nat) (px : Rgb) :
    readPixel (setPix (storePixel s.pix slot px) s) k = if k = slot then px else readPixel s k := by
  have h0 := readByte_storePixel s slot (3 * k) px
  have h1 := readByte_storePixel s slot (3 * k + 1) px
  have h2 := readByte_storePixel s slot (3 * k + 2) px
  rw [show 3 * k / 3 = k by omega, show 3 * k % 3 = 0 by omega] at h0
  rw [show (3 * k + 1) / 3 = k by omega, show (3 * k + 1) % 3 = 1 by omega] at h1
  rw [show (3 * k + 2) / 3 = k by omega, show (3 * k + 2) % 3 = 2 by omega] at h2
  by_cases h : k = slot
  · simp only [readPixel, h0, h1, h2, if_pos h, channelOf]; rfl
  · simp only [readPixel, h0, h1, h2, if_neg h]

/-! ### Updates that leave every byte of storage as it is -/

@[simp] theorem readByte_setRxState (x : BitVec 3) (s : State) (sp : Space) (a : Nat) :
    readByte (setRxState x s) sp a = readByte s sp a := by cases sp <;> rfl
@[simp] theorem readByte_setFrameId (x : Byte) (s : State) (sp : Space) (a : Nat) :
    readByte (setFrameId x s) sp a = readByte s sp a := by cases sp <;> rfl
@[simp] theorem readByte_setDeclaredLength (x : LenReg) (s : State) (sp : Space) (a : Nat) :
    readByte (setDeclaredLength x s) sp a = readByte s sp a := by cases sp <;> rfl
@[simp] theorem readByte_setBytesReceived (x : BitVec 16) (s : State) (sp : Space) (a : Nat) :
    readByte (setBytesReceived x s) sp a = readByte s sp a := by cases sp <;> rfl
@[simp] theorem readByte_stampLastOk (s : State) (sp : Space) (a : Nat) :
    readByte (stampLastOk s) sp a = readByte s sp a := by cases sp <;> rfl
@[simp] theorem readByte_markStarted (s : State) (sp : Space) (a : Nat) :
    readByte (markStarted s) sp a = readByte s sp a := by cases sp <;> rfl
@[simp] theorem readByte_emit (x : Result) (s : State) (sp : Space) (a : Nat) :
    readByte (emit x s) sp a = readByte s sp a := by cases sp <;> rfl
@[simp] theorem readByte_flush (s : State) (sp : Space) (a : Nat) :
    readByte (flush s) sp a = readByte s sp a := by cases sp <;> rfl
@[simp] theorem readByte_driveCrcOut (x : Byte) (s : State) (sp : Space) (a : Nat) :
    readByte (driveCrcOut x s) sp a = readByte s sp a := by cases sp <;> rfl
@[simp] theorem readByte_driveMapSlot (x : Nat) (s : State) (sp : Space) (a : Nat) :
    readByte (driveMapSlot x s) sp a = readByte s sp a := by cases sp <;> rfl
@[simp] theorem readByte_reject (x : Cause) (s : State) (sp : Space) (a : Nat) :
    readByte (reject x s) sp a = readByte s sp a := by cases sp <;> rfl

@[simp] theorem readByte_forgetUnspecified (s : State) (a : Nat) :
    readByte (forgetUnspecified s) .pix a = readByte s .pix a := rfl

/-- A snapshot depends on the configuration and the pixel memory alone. -/
theorem pixels_congr {s t : State} (h : t.pix = s.pix) (hc : t.cfg = s.cfg) : pixels t = pixels s := by
  rw [pixels, pixels, hc, funext (readPixel_congr h)]

theorem flushOf_congr {s t : State} (h : t.pix = s.pix) (hc : t.cfg = s.cfg) : flushOf t = flushOf s := by
  simp only [flushOf, pixels_congr h hc, hc]

/-! ### The canonical form -/

theorem mem_eraseCell {m : List Host.Cell} {a : Nat} {c : Host.Cell} (h : c ∈ eraseCell m a) : c ∈ m := by
  induction m with
  | nil => simp [eraseCell] at h
  | cons d m ih =>
    unfold eraseCell at h
    split at h
    · exact List.mem_cons_of_mem _ (ih h)
    · rcases List.mem_cons.mp h with rfl | h
      · exact List.mem_cons_self
      · exact List.mem_cons_of_mem _ (ih h)

theorem mem_insertCell {m : List Host.Cell} {a : Nat} {v : Byte} {c : Host.Cell} (h : c ∈ insertCell m a v) :
    c = (a, v) ∨ c ∈ m := by
  induction m with
  | nil => simpa [insertCell] using h
  | cons d m ih =>
    unfold insertCell at h
    split at h
    · simpa using h
    · split at h
      · rcases List.mem_cons.mp h with h | h
        · exact .inl h
        · exact .inr (List.mem_cons_of_mem _ h)
      · rcases List.mem_cons.mp h with rfl | h
        · exact .inr List.mem_cons_self
        · exact (ih h).imp id (List.mem_cons_of_mem _)

theorem pairwise_eraseCell {m : List Host.Cell} (a : Nat) (h : m.Pairwise (fun x y => x.1 < y.1)) :
    (eraseCell m a).Pairwise (fun x y => x.1 < y.1) := by
  induction m with
  | nil => simp [eraseCell]
  | cons d m ih =>
    rw [List.pairwise_cons] at h
    unfold eraseCell
    split
    · exact ih h.2
    · exact List.pairwise_cons.mpr ⟨fun c hc => h.1 c (mem_eraseCell hc), ih h.2⟩

theorem pairwise_insertCell {m : List Host.Cell} (a : Nat) (v : Byte) (h : m.Pairwise (fun x y => x.1 < y.1)) :
    (insertCell m a v).Pairwise (fun x y => x.1 < y.1) := by
  induction m with
  | nil => simp [insertCell]
  | cons d m ih =>
    rw [List.pairwise_cons] at h
    unfold insertCell
    split
    · next hlt =>
      refine List.pairwise_cons.mpr ⟨fun c hc => ?_, List.pairwise_cons.mpr h⟩
      rcases List.mem_cons.mp hc with rfl | hc
      · exact hlt
      · exact lt_trans hlt (h.1 c hc)
    · split
      · next heq => exact List.pairwise_cons.mpr ⟨fun c hc => heq ▸ h.1 c hc, h.2⟩
      · refine List.pairwise_cons.mpr ⟨fun c hc => ?_, ih h.2⟩
        rcases mem_insertCell hc with rfl | hc
        · simp only; omega
        · exact h.1 c hc

/-- A store inside the bound keeps the canonical form. -/
theorem Memory.wf_storeByte {sp : Space} {bound a : Nat} {m : List Host.Cell} (v : Byte)
    (h : Memory.wf sp bound m) (ha : a < bound) : Memory.wf sp bound (storeByte sp m a v) := by
  unfold storeByte
  split
  · exact ⟨pairwise_eraseCell a h.1, fun c hc => h.2 c (mem_eraseCell hc)⟩
  · next hv =>
    refine ⟨pairwise_insertCell a v h.1, fun c hc => ?_⟩
    rcases mem_insertCell hc with rfl | hc
    · exact ⟨ha, by simpa using hv⟩
    · exact h.2 c hc

/-- Storing a triplet whose slot is inside the bound keeps the canonical form. -/
theorem Memory.wf_storePixel {n slot : Nat} {m : List Host.Cell} (px : Rgb)
    (h : Memory.wf .pix (3 * n) m) (hs : slot < n) : Memory.wf .pix (3 * n) (storePixel m slot px) :=
  Memory.wf_storeByte _ (Memory.wf_storeByte _ (Memory.wf_storeByte _ h (by omega)) (by omega)) (by omega)

theorem Memory.wf_nil (sp : Space) (bound : Nat) : Memory.wf sp bound [] := ⟨List.Pairwise.nil, by simp⟩

theorem payloadLen_eq (c : Config) : payloadLen c = 3 * slotCount c := by
  unfold payloadLen slotCount; omega

end Sys2Proof.Machine
end

