-- ==== Sys2Proof/Laws/Pixels.lean ====
section
/-! SUPPORT. What the loops over the pixel buffer do: the blackout's, RESET's and the frame apply's. Each
answers the state with another pixel memory, never a fault, and keeps the canonical form. -/

namespace Sys2Proof.Machine

theorem writePixel_ok {slot : Nat} (px : Rgb) {s : State} (h : slot < slotCount s.cfg) :
    writePixel slot px s = .ok (setPix (storePixel s.pix slot px) s) := by
  simp [writePixel, h]

/-- Everything `blackenSlots` does on slots in range: a new pixel memory in which the bytes of those slots are
zero and every other byte is as before. -/
theorem blackenSlots_spec (l : List Nat) (s : State) (hl : ∀ k ∈ l, k < slotCount s.cfg) :
    ∃ m, blackenSlots l s = .ok (setPix m s) ∧
      (∀ a, readByte (setPix m s) .pix a = if a / 3 ∈ l then 0 else readByte s .pix a) ∧
      (Memory.wf .pix (payloadLen s.cfg) s.pix → Memory.wf .pix (payloadLen s.cfg) m) := by
  induction l generalizing s with
  | nil => exact ⟨s.pix, rfl, fun a => by
      rw [if_neg (by simp)]; exact readPix_congr rfl a, id⟩
  | cons k l ih =>
    have hk := hl k List.mem_cons_self
    obtain ⟨m, h1, h2, h3⟩ := ih (setPix (storePixel s.pix k Rgb.black) s)
      (fun j hj => hl j (List.mem_cons_of_mem _ hj))
    refine ⟨m, ?_, fun a => ?_, fun hw => ?_⟩
    · simp only [blackenSlots, writePixel_ok _ hk, h1]; rfl
    · have := h2 a
      rw [readByte_storePixel] at this
      rw [show setPix m s = setPix m (setPix (storePixel s.pix k Rgb.black) s) from rfl, this]
      by_cases hal : a / 3 ∈ l
      · simp [hal]
      · by_cases hak : a / 3 = k
        · simp only [hak, List.mem_cons, if_true, true_or, channelOf, Rgb.black, ite_self]
        · simp [hal, hak]
    · refine h3 ?_
      simp only [setPix_cfg, setPix_pix]
      rw [payloadLen_eq] at hw ⊢
      exact Memory.wf_storePixel _ hw hk

/-- Everything `blackenAll` does. -/
theorem blackenAll_spec (s : State) :
    ∃ m, blackenAll s = .ok (setPix m s) ∧
      (∀ a, readByte (setPix m s) .pix a = if a < payloadLen s.cfg then 0 else readByte s .pix a) ∧
      (Memory.wf .pix (payloadLen s.cfg) s.pix → Memory.wf .pix (payloadLen s.cfg) m) := by
  obtain ⟨m, h1, h2, h3⟩ := blackenSlots_spec (List.range (slotCount s.cfg)) s (by simp)
  refine ⟨m, h1, fun a => ?_, h3⟩
  rw [h2, payloadLen_eq]
  have : a / 3 < slotCount s.cfg ↔ a < 3 * slotCount s.cfg := by omega
  simp [this]

/-- A pixel memory whose bytes below the bound of a canonical form all read zero lists nothing. -/
theorem pix_eq_nil_of_zero {s : State} (hw : Memory.wf .pix (payloadLen s.cfg) s.pix)
    (h0 : ∀ a, a < payloadLen s.cfg → readByte s .pix a = 0) : s.pix = [] := by
  rcases hm : s.pix with _ | ⟨⟨k, v⟩, m⟩
  · rfl
  · obtain ⟨hlt, hv⟩ := hw.2 (k, v) (by simp [hm])
    have := h0 k hlt
    simp [readByte_eq, hm, lookup] at this
    simp [isUnlistedByte, this] at hv

/-- The mapper answers a slot in range (`42_applier.md` R122). -/
theorem serp_lt {c : Config} {x y : Nat} (hx : x < c.w) (hy : y < c.h) : serp c x y < slotCount c := by
  have h1 : y * c.w + c.w ≤ c.h * c.w := by nlinarith
  have h2 : slotCount c = c.h * c.w := by unfold slotCount; exact Nat.mul_comm _ _
  unfold serp; split <;> omega

theorem cellIndex_lt {c : Config} {x y : Nat} (hx : x < c.w) (hy : y < c.h) : cellIndex c x y < slotCount c := by
  have h1 : y * c.w + c.w ≤ c.h * c.w := by nlinarith
  have h2 : slotCount c = c.h * c.w := by unfold slotCount; exact Nat.mul_comm _ _
  unfold cellIndex; omega

theorem mem_gridCells {c : Config} {x y : Nat} : (x, y) ∈ gridCells c ↔ x < c.w ∧ y < c.h := by
  simp [gridCells, and_comm]

/-- A payload of `3*n` bytes has a triplet for every index below `n`. -/
theorem pixelAt_of_lt {p : List Byte} {n i : Nat} (hp : p.length = 3 * n) (hi : i < n) :
    ∃ px, pixelAt p i = some px ∧ ∀ c, c < 3 → p[3 * i + c]? = some (channelOf px c) := by
  have e0 : p[3 * i]? = some (p[3 * i]'(by omega)) := List.getElem?_eq_getElem (by omega)
  have e1 : p[3 * i + 1]? = some (p[3 * i + 1]'(by omega)) := List.getElem?_eq_getElem (by omega)
  have e2 : p[3 * i + 2]? = some (p[3 * i + 2]'(by omega)) := List.getElem?_eq_getElem (by omega)
  refine ⟨⟨p[3 * i]'(by omega), p[3 * i + 1]'(by omega), p[3 * i + 2]'(by omega)⟩, ?_, fun c hc => ?_⟩
  · simp [pixelAt, e0, e1, e2]
  · have : c = 0 ∨ c = 1 ∨ c = 2 := by omega
    rcases this with rfl | rfl | rfl
    · exact e0
    · exact e1
    · exact e2

/-- Everything `applyCells` does on cells of the grid: a new pixel memory in which a cell that alone in the
list maps to its slot has its triplet of the payload there, and a byte of no cell's slot is as before. -/
theorem applyCells_spec (p : List Byte) (l : List (Nat × Nat)) (s : State)
    (hp : p.length = payloadLen s.cfg) (hl : ∀ q ∈ l, q.1 < s.cfg.w ∧ q.2 < s.cfg.h) :
    ∃ m, applyCells p l s = .ok (setPix m s) ∧
      (∀ q ∈ l, (∀ r ∈ l, serp s.cfg r.1 r.2 = serp s.cfg q.1 q.2 → r = q) → ∀ c, c < 3 →
        p[3 * cellIndex s.cfg q.1 q.2 + c]? =
          some (readByte (setPix m s) .pix (3 * serp s.cfg q.1 q.2 + c))) ∧
      (∀ a, (∀ q ∈ l, serp s.cfg q.1 q.2 ≠ a / 3) → readByte (setPix m s) .pix a = readByte s .pix a) ∧
      (Memory.wf .pix (payloadLen s.cfg) s.pix → Memory.wf .pix (payloadLen s.cfg) m) := by
  induction l generalizing s with
  | nil => exact ⟨s.pix, rfl, by simp, fun a _ => readPix_congr rfl a, id⟩
  | cons q l ih =>
    obtain ⟨x, y⟩ := q
    have hq := hl (x, y) List.mem_cons_self
    obtain ⟨px, e1, e2⟩ := pixelAt_of_lt (by rw [hp, payloadLen_eq]) (cellIndex_lt hq.1 hq.2)
    obtain ⟨m, h1, h2, h3, h4⟩ := ih (setPix (storePixel s.pix (serp s.cfg x y) px) s) (by simpa using hp)
      (fun r hr => by simpa using hl r (List.mem_cons_of_mem _ hr))
    simp only [setPix_cfg] at h2 h3
    have hm : setPix m s = setPix m (setPix (storePixel s.pix (serp s.cfg x y) px) s) := rfl
    refine ⟨m, ?_, ?_, ?_, ?_⟩
    · simp only [applyCells, e1, writePixel_ok px (serp_lt hq.1 hq.2), h1]; rfl
    · intro r hr hu c hc
      rw [hm]
      by_cases hin : r ∈ l
      · exact h2 r hin (fun r' hr' => hu r' (List.mem_cons_of_mem _ hr')) c hc
      · have hrq : r = (x, y) := by simpa [hin] using List.mem_cons.mp hr
        subst hrq
        have hnone : ∀ r ∈ l, serp s.cfg r.1 r.2 ≠ (3 * serp s.cfg x y + c) / 3 := by
          intro r' hr' he
          have : r' = (x, y) := hu r' (List.mem_cons_of_mem _ hr') (by simp only; omega)
          exact hin (this ▸ hr')
        rw [h3 _ hnone, readByte_storePixel, if_pos (by omega), show (3 * serp s.cfg x y + c) % 3 = c by omega]
        exact e2 c hc
    · intro a ha
      rw [hm, h3 a (fun r hr => ha r (List.mem_cons_of_mem _ hr)), readByte_storePixel,
        if_neg (fun h => ha (x, y) List.mem_cons_self h.symm)]
    · intro hw
      refine h4 ?_
      simp only [setPix_cfg, setPix_pix]
      rw [payloadLen_eq] at hw ⊢
      exact Memory.wf_storePixel _ hw (serp_lt hq.1 hq.2)

@[simp] theorem length_payload (s : State) : (payload s).length = payloadLen s.cfg := by simp [payload]

theorem payload_getElem? (s : State) {k : Nat} (h : k < payloadLen s.cfg) :
    (payload s)[k]? = some (readByte s .pay k) := by simp [payload, h]

/-- `applyFrame` of a payload of `L` bytes answers: a new pixel memory, flushed once. -/
theorem applyFrame_spec {p : List Byte} {s : State} (hp : p.length = payloadLen s.cfg) :
    ∃ m, applyFrame p s = .ok (flush (setPix m s)) ∧ applyCells p (gridCells s.cfg) s = .ok (setPix m s) ∧
      (Memory.wf .pix (payloadLen s.cfg) s.pix → Memory.wf .pix (payloadLen s.cfg) m) := by
  obtain ⟨m, h1, _, _, h4⟩ := applyCells_spec p (gridCells s.cfg) s hp (fun q hq => mem_gridCells.mp hq)
  exact ⟨m, by simp [applyFrame, h1], h1, h4⟩

end Sys2Proof.Machine
end

