-- ==== Sys2Proof/Laws/Exec.lean ====
section
/-! SUPPORT. What each meaning and each shared operation can answer, said once. A proof about a step cites
these and does not unfold a meaning. -/

namespace Sys2Proof.Machine

theorem payloadLen_le {c : Config} (h : legalConfig c = true) : payloadLen c ≤ 65535 := by
  simp [legalConfig] at h; omega

theorem legalConfig_iff {c : Config} :
    legalConfig c = true ↔ 1 ≤ c.w ∧ 1 ≤ c.h ∧ payloadLen c ≤ 65535 ∧ c.t < 2 ^ c.tw := by
  simp [legalConfig, and_assoc]

theorem sampledNow_lt (s : State) : sampledNow s < 2 ^ s.cfg.tw := Nat.mod_lt _ (Nat.two_pow_pos _)

/-- A TICK that answers has left everything but the result alone, or has blackened the buffer and flushed it
once. -/
theorem execTick_cases {d : Byte} {s t : State} (h : execTick d s = .next t) :
    s.started = true ∧
      ((stale s = false ∧ t = emit .idle s) ∨
        (stale s = true ∧ ∃ m, blackenAll s = .ok (setPix m s) ∧ t = emit .idle (flush (setPix m s)))) := by
  obtain ⟨m, hm, _⟩ := blackenAll_spec s
  by_cases hs : s.started = true
  · by_cases hst : stale s = true
    · simp [execTick, afterReset, hs, hst, blackout, hm] at h
      exact ⟨hs, .inr ⟨hst, m, hm, h.symm⟩⟩
    · simp [execTick, afterReset, hs, hst] at h
      exact ⟨hs, .inl ⟨by simpa using hst, h.symm⟩⟩
  · simp [execTick, afterReset, hs] at h

/-- What RESET answers with: it always does. -/
theorem execReset_cases (d : Byte) (s : State) :
    ∃ m, blackenAll (setBytesReceived 0 (setRxState 0 s)) = .ok (setPix m (setBytesReceived 0 (setRxState 0 s))) ∧
      execReset d s = .next (emit .idle (markStarted (forgetUnspecified (stampLastOk
        (setPix m (setBytesReceived 0 (setRxState 0 s))))))) := by
  obtain ⟨m, hm, _⟩ := blackenAll_spec (setBytesReceived 0 (setRxState 0 s))
  exact ⟨m, hm, by simp only [execReset, hm]⟩

/-- A FEED that answers has performed the row that the receiver state and the byte select. -/
theorem execFeed_cases {b : Byte} {s t : State} (h : execFeed b s = .next t) :
    s.started = true ∧ performRow (decodeRxdec (rxWord s.rxState b)) s = .next t := by
  by_cases hs : s.started = true
  · exact ⟨hs, by simpa [execFeed, afterReset, hs] using h⟩
  · simp [execFeed, afterReset, hs] at h

/-- LenHigh goes on to the payload on a match and rejects the frame on a mismatch. -/
theorem execRxLenHigh_cases {b : Byte} {s t : State} (h : execRxLenHigh b s = .next t) :
    ((s.declaredLength.setHigh b).value.toNat = payloadLen s.cfg ∧
      t = emit .idle (setRxState 5 (setBytesReceived 0 (setDeclaredLength (s.declaredLength.setHigh b) s)))) ∨
    ((s.declaredLength.setHigh b).value.toNat ≠ payloadLen s.cfg ∧
      t = reject .length (setBytesReceived 0 (setDeclaredLength (s.declaredLength.setHigh b) s))) := by
  by_cases hl : (s.declaredLength.setHigh b).value.toNat = payloadLen s.cfg
  · simp [execRxLenHigh, hl] at h; exact .inl ⟨hl, h.symm⟩
  · simp [execRxLenHigh, hl] at h; exact .inr ⟨hl, h.symm⟩

/-- A payload byte that is taken is stored at `bytes_received`, in range, and counted. -/
theorem execRxPayload_cases {b : Byte} {s t : State} (h : execRxPayload b s = .next t) :
    s.bytesReceived.toNat < payloadLen s.cfg ∧
      ((((s.bytesReceived + 1).toNat = payloadLen s.cfg) ∧
          t = emit .idle (setRxState 6 (setBytesReceived (s.bytesReceived + 1)
            (setPay (storeByte .pay s.pay s.bytesReceived.toNat b) s)))) ∨
        ((s.bytesReceived + 1).toNat ≠ payloadLen s.cfg ∧
          t = emit .idle (setBytesReceived (s.bytesReceived + 1)
            (setPay (storeByte .pay s.pay s.bytesReceived.toNat b) s)))) := by
  by_cases hr : s.bytesReceived.toNat < payloadLen s.cfg
  · refine ⟨hr, ?_⟩
    simp only [execRxPayload, writePay, hr, if_true] at h
    by_cases he : (s.bytesReceived + 1).toNat = payloadLen s.cfg
    · rw [if_pos he] at h; injection h with h; exact .inl ⟨he, h.symm⟩
    · rw [if_neg he] at h; injection h with h; exact .inr ⟨he, h.symm⟩
  · simp [execRxPayload, writePay, hr] at h

/-- The CRC byte applies the frame on a match and rejects it on a mismatch. -/
theorem execRxCrc_cases {b : Byte} {s t : State} (h : execRxCrc b s = .next t) :
    (checksum (payload s) = b ∧ ∃ m, applyCells (payload s) (gridCells s.cfg)
        (emit (.frameReady (payload s)) s) = .ok (setPix m (emit (.frameReady (payload s)) s)) ∧
        t = setRxState 0 (stampLastOk (flush (setPix m (emit (.frameReady (payload s)) s))))) ∨
    (checksum (payload s) ≠ b ∧ t = reject .crc s) := by
  obtain ⟨m, h1, h2, _⟩ := applyFrame_spec (p := payload s) (s := emit (.frameReady (payload s)) s) (by simp)
  by_cases hc : checksum (payload s) = b
  · simp only [execRxCrc, hc, if_true, h1] at h
    exact .inl ⟨hc, m, by simpa using h2, by simpa using h.symm⟩
  · simp [execRxCrc, hc] at h
    exact .inr ⟨hc, h.symm⟩

/-- What `configure` can answer with. -/
theorem configure_cases {c : Config} {s t : State} (h : configure c s = .next t) :
    legalConfig c = true ∧ ((s.cfg = c ∧ t = s) ∨
      (s.started = false ∧ t = { State.powerOn c with
        epoch := s.epoch, nowMs := s.nowMs, pending := s.pending, results := s.results, flushes := s.flushes,
        crcOut := s.crcOut, mapSlot := s.mapSlot })) := by
  unfold configure at h
  split at h
  · cases h
  · next hl =>
    refine ⟨by simpa using hl, ?_⟩
    split at h
    · next hc => exact .inl ⟨hc, by simpa using h.symm⟩
    · split at h
      · cases h
      · next hs => exact .inr ⟨by simpa using hs, by simpa using h.symm⟩

/-- The state in which an input is performed: the input taken, the time of an event sampled. -/
def afterFetch (s : State) (rest : List Input) (now : Nat) : State := { s with pending := rest, nowMs := now }

@[simp] theorem afterFetch_cfg (s : State) (r : List Input) (n : Nat) : (afterFetch s r n).cfg = s.cfg := rfl
@[simp] theorem afterFetch_rxState (s : State) (r : List Input) (n : Nat) :
    (afterFetch s r n).rxState = s.rxState := rfl
@[simp] theorem afterFetch_frameId (s : State) (r : List Input) (n : Nat) :
    (afterFetch s r n).frameId = s.frameId := rfl
@[simp] theorem afterFetch_declaredLength (s : State) (r : List Input) (n : Nat) :
    (afterFetch s r n).declaredLength = s.declaredLength := rfl
@[simp] theorem afterFetch_bytesReceived (s : State) (r : List Input) (n : Nat) :
    (afterFetch s r n).bytesReceived = s.bytesReceived := rfl
@[simp] theorem afterFetch_pay (s : State) (r : List Input) (n : Nat) : (afterFetch s r n).pay = s.pay := rfl
@[simp] theorem afterFetch_pix (s : State) (r : List Input) (n : Nat) : (afterFetch s r n).pix = s.pix := rfl
@[simp] theorem afterFetch_lastOkMs (s : State) (r : List Input) (n : Nat) :
    (afterFetch s r n).lastOkMs = s.lastOkMs := rfl
@[simp] theorem afterFetch_started (s : State) (r : List Input) (n : Nat) :
    (afterFetch s r n).started = s.started := rfl
@[simp] theorem afterFetch_epoch (s : State) (r : List Input) (n : Nat) : (afterFetch s r n).epoch = s.epoch := rfl
@[simp] theorem afterFetch_nowMs (s : State) (r : List Input) (n : Nat) : (afterFetch s r n).nowMs = n := rfl
@[simp] theorem afterFetch_pending (s : State) (r : List Input) (n : Nat) : (afterFetch s r n).pending = r := rfl
@[simp] theorem afterFetch_results (s : State) (r : List Input) (n : Nat) :
    (afterFetch s r n).results = s.results := rfl
@[simp] theorem afterFetch_flushes (s : State) (r : List Input) (n : Nat) :
    (afterFetch s r n).flushes = s.flushes := rfl
@[simp] theorem afterFetch_crcOut (s : State) (r : List Input) (n : Nat) : (afterFetch s r n).crcOut = s.crcOut := rfl
@[simp] theorem afterFetch_mapSlot (s : State) (r : List Input) (n : Nat) :
    (afterFetch s r n).mapSlot = s.mapSlot := rfl

/-- Everything a step can do when it answers: hold, take a configuration, or perform an instruction under a
legal configuration. -/
theorem step_cases {s t : State} (h : step s = .next t) :
    (s.pending = [] ∧ t = s) ∨
    (∃ c rest, s.pending = .configure c :: rest ∧ configure c (afterFetch s rest s.nowMs) = .next t) ∨
    (∃ inp rest now i, s.pending = inp :: rest ∧ legalConfig s.cfg = true ∧ (∀ c, inp ≠ .configure c) ∧
      (∀ w n, inp = .event w n → now = n ∧ i = decode (.evt w)) ∧
      (∀ a b, inp = .crcPort a b → now = s.nowMs ∧ i = .crcStep a b) ∧
      (∀ x y, inp = .mapPort x y → now = s.nowMs ∧ i = .serpMap x y) ∧
      exec i (afterFetch s rest now) = .next t) := by
  unfold step fetch at h
  rcases hp : s.pending with _ | ⟨inp, rest⟩
  · simp only [hp] at h; exact .inl ⟨rfl, by simpa using h.symm⟩
  · cases inp with
    | configure c => simp only [hp] at h; exact .inr (.inl ⟨c, rest, rfl, h⟩)
    | event w now =>
      simp only [hp, underLegalConfig] at h
      split at h
      · next hl => exact .inr (.inr ⟨_, rest, now, _, rfl, hl, by simp, by simp, by simp, by simp, h⟩)
      · cases h
    | crcPort a b =>
      simp only [hp, underLegalConfig] at h
      split at h
      · next hl => exact .inr (.inr ⟨_, rest, s.nowMs, _, rfl, hl, by simp, by simp, by simp [decode], by simp, h⟩)
      · cases h
    | mapPort x y =>
      simp only [hp, underLegalConfig] at h
      split at h
      · next hl => exact .inr (.inr ⟨_, rest, s.nowMs, _, rfl, hl, by simp, by simp, by simp, by simp [decode], h⟩)
      · cases h

@[simp] theorem runSteps_zero (s : State) : runSteps 0 s = .next s := rfl

/-- A run of one step more. -/
theorem runSteps_succ (n : Nat) (s : State) :
    runSteps (n + 1) s = match step s with
      | .next s' => runSteps n s'
      | .fault f => .fault f
      | .refused r => .refused r := by
  have h : Sys2Proof.core.step s = step s := rfl
  unfold runSteps
  simp only [Host.Core.run, h]
  cases step s <;> rfl

theorem runSteps_succ_of_next {n : Nat} {s s' : State} (h : step s = .next s') :
    runSteps (n + 1) s = runSteps n s' := by
  rw [runSteps_succ, h]

@[simp] theorem runSteps_one (s : State) : runSteps 1 s = step s := by
  rw [runSteps_succ]; cases step s <;> rfl

/-- A run that answers is a first step and a run from there. -/
theorem runSteps_succ_next {n : Nat} {s t : State} (h : runSteps (n + 1) s = .next t) :
    ∃ s', step s = .next s' ∧ runSteps n s' = .next t := by
  rw [runSteps_succ] at h
  cases hs : step s with
  | next s' => exact ⟨s', rfl, by simpa [hs] using h⟩
  | fault f => simp [hs] at h
  | refused r => simp [hs] at h

/-- A run in two parts. -/
theorem runSteps_add (m n : Nat) (s : State) :
    runSteps (m + n) s = match runSteps m s with
      | .next s' => runSteps n s'
      | .fault f => .fault f
      | .refused r => .refused r := by
  induction m generalizing s with
  | zero => simp
  | succ m ih =>
    rw [show m + 1 + n = (m + n) + 1 by omega, runSteps_succ, runSteps_succ]
    cases step s with
    | next s' => exact ih s'
    | fault f => rfl
    | refused r => rfl

end Sys2Proof.Machine
end

