-- ==== Sys2Proof/Laws/Receiver.lean ====
section
/-! SUPPORT. The length register as a number, and the row that FEED performs in each receiver state. -/

namespace Sys2Proof.Machine

theorem append_toNat (h l : Byte) : (h ++ l : BitVec 16).toNat = h.toNat * 256 + l.toNat := by
  show (h ++ l : BitVec (8 + 8)).toNat = _
  rw [BitVec.toNat_append, Nat.shiftLeft_eq, Nat.mul_comm, ← Nat.two_pow_add_eq_or_of_lt l.isLt]

/-- LEN as a number: `LEN_HI * 256 + LEN_LO` (`30_encoding.md` R61). -/
theorem LenReg.value_toNat (d : LenReg) : d.value.toNat = d.hi.toNat * 256 + d.lo.toNat := append_toNat d.hi d.lo

@[simp] theorem LenReg.value_high (d : LenReg) : d.value.extractLsb' 8 8 = d.hi := by
  apply BitVec.eq_of_toNat_eq
  have := d.lo.isLt
  have := d.hi.isLt
  rw [BitVec.extractLsb'_toNat, LenReg.value_toNat, Nat.shiftRight_eq_div_pow]
  omega

@[simp] theorem LenReg.value_low (d : LenReg) : d.value.extractLsb' 0 8 = d.lo := by
  apply BitVec.eq_of_toNat_eq
  have := d.lo.isLt
  rw [BitVec.extractLsb'_toNat, LenReg.value_toNat, Nat.shiftRight_eq_div_pow]
  omega

variable {s : State} (b : Byte)

/-- FEED once the block runs. -/
theorem execFeed_started (hs : s.started = true) :
    execFeed b s = performRow (decodeRxdec (rxWord s.rxState b)) s := by simp [execFeed, afterReset, hs]

theorem execFeed_sync1 (hs : s.started = true) (h : s.rxState = 0) :
    execFeed b s = if b = sync1 then execRxSync1Hit s else execRxSync1Miss b s := by
  rw [execFeed_started b hs, decodeRxdec_rxWord, h]
  by_cases hb : b = sync1 <;> simp [hb, performRow]

theorem execFeed_sync2 (hs : s.started = true) (h : s.rxState = 1) :
    execFeed b s = if b = sync2 then execRxSync2Hit s else execRxSync2Miss b s := by
  rw [execFeed_started b hs, decodeRxdec_rxWord, h]
  by_cases hb : b = sync2 <;> simp [hb, performRow]

theorem execFeed_frameId (hs : s.started = true) (h : s.rxState = 2) : execFeed b s = execRxFrameId b s := by
  simp [execFeed_started b hs, decodeRxdec_rxWord, h, performRow]

theorem execFeed_lenLow (hs : s.started = true) (h : s.rxState = 3) : execFeed b s = execRxLenLow b s := by
  simp [execFeed_started b hs, decodeRxdec_rxWord, h, performRow]

theorem execFeed_lenHigh (hs : s.started = true) (h : s.rxState = 4) : execFeed b s = execRxLenHigh b s := by
  simp [execFeed_started b hs, decodeRxdec_rxWord, h, performRow]

theorem execFeed_payload (hs : s.started = true) (h : s.rxState = 5) : execFeed b s = execRxPayload b s := by
  simp [execFeed_started b hs, decodeRxdec_rxWord, h, performRow]

theorem execFeed_crc (hs : s.started = true) (h : s.rxState = 6) : execFeed b s = execRxCrc b s := by
  simp [execFeed_started b hs, decodeRxdec_rxWord, h, performRow]

theorem execFeed_illegal (hs : s.started = true) (h : s.rxState = 7) : execFeed b s = execRxIllegalState b s := by
  simp [execFeed_started b hs, decodeRxdec_rxWord, h, performRow]

/-- The receiver state is one of eight codes. -/
theorem rxState_cases (c : BitVec 3) :
    c = 0 ∨ c = 1 ∨ c = 2 ∨ c = 3 ∨ c = 4 ∨ c = 5 ∨ c = 6 ∨ c = 7 := by
  revert c; decide

/-- A step on a FEED event of a running block. -/
theorem step_feed {t : Nat} {rest : List Input} (hl : legalConfig s.cfg = true)
    (hp : s.pending = feedEvent b t :: rest) : step s = execFeed b (afterFetch s rest t) := by
  simp only [step, fetch, hp, feedEvent, decode_feedWord, underLegalConfig, hl, if_true]
  rfl

/-- A step on a TICK event. -/
theorem step_tick {t : Nat} {rest : List Input} (hl : legalConfig s.cfg = true)
    (hp : s.pending = tickEvent t :: rest) : step s = execTick 0 (afterFetch s rest t) := by
  simp only [step, fetch, hp, tickEvent, decode_tickWord, underLegalConfig, hl, if_true]
  rfl

/-- A step on a RESET event. -/
theorem step_reset {t : Nat} {rest : List Input} (hl : legalConfig s.cfg = true)
    (hp : s.pending = resetEvent t :: rest) : step s = execReset 0 (afterFetch s rest t) := by
  simp only [step, fetch, hp, resetEvent, decode_resetWord, underLegalConfig, hl, if_true]
  rfl

end Sys2Proof.Machine
end

