-- ==== Sys2Proof/Laws/Display.lean ====
section
/-! SUPPORT. Black buffers and their flush, the two cases of a TICK, and what any instruction that answers has
done to the display, the outputs and the configuration. -/

namespace Sys2Proof.Machine

/-- What `blackenAll` leaves in every byte of PIX. -/
theorem readByte_blackenAll {s : State} {m : List Host.Cell} (h : blackenAll s = .ok (setPix m s)) (a : Nat) :
    readByte (setPix m s) .pix a = if a < payloadLen s.cfg then 0 else readByte s .pix a := by
  obtain ⟨m', h1, h2, _⟩ := blackenAll_spec s
  have : setPix m s = setPix m' s := by rw [h] at h1; exact Except.ok.inj h1
  rw [this]; exact h2 a

/-- `blackenAll` keeps the canonical form. -/
theorem wf_blackenAll {s : State} {m : List Host.Cell} (h : blackenAll s = .ok (setPix m s))
    (hw : Memory.wf .pix (payloadLen s.cfg) s.pix) : Memory.wf .pix (payloadLen s.cfg) m := by
  obtain ⟨m', h1, _, h3⟩ := blackenAll_spec s
  have : setPix m s = setPix m' s := by rw [h] at h1; exact Except.ok.inj h1
  have : m = m' := congrArg State.pix this
  rw [this]; exact h3 hw

/-- A buffer whose bytes are zero is black. -/
theorem allBlack_of_bytes {t : State} (h : ∀ a, a < payloadLen t.cfg → readByte t .pix a = 0) : allBlack t := by
  intro k hk
  have e := payloadLen_eq t.cfg
  simp only [readPixel, Rgb.black, h (3 * k) (by omega), h (3 * k + 1) (by omega), h (3 * k + 2) (by omega)]

/-- Blackness depends on the configuration and the pixel memory alone. -/
theorem allBlack_congr {s t : State} (h : t.pix = s.pix) (hc : t.cfg = s.cfg) : allBlack t ↔ allBlack s := by
  unfold allBlack; rw [hc, funext (readPixel_congr h)]

/-- A state with the pixel memory of a `blackenAll` is black. -/
theorem allBlack_of_blackenAll {s t : State} {m : List Host.Cell} (h : blackenAll s = .ok (setPix m s))
    (hp : t.pix = m) (hc : t.cfg = s.cfg) : allBlack t :=
  (allBlack_congr (s := setPix m s) hp hc).mpr
    (allBlack_of_bytes fun a ha => (readByte_blackenAll h a).trans (if_pos ha))

/-- The flush of a black buffer. -/
theorem flushOf_allBlack {t : State} (h : allBlack t) : flushOf t = blackFlush t.cfg := by
  unfold flushOf blackFlush pixels
  congr 1
  apply List.ext_getElem
  · simp
  · intro i hi _
    simpa using h i (by simpa using hi)

/-- Staleness, spelled out (`43_watchdog.md` R140). -/
theorem stale_iff (s : State) : stale s = true ↔
    (((s.nowMs % 2 ^ s.cfg.tw : Nat) : Int) - (s.lastOkMs : Int)) % ((2 ^ s.cfg.tw : Nat) : Int) > (s.cfg.t : Int) := by
  have h0 : 0 ≤ (((s.nowMs % 2 ^ s.cfg.tw : Nat) : Int) - (s.lastOkMs : Int)) % ((2 ^ s.cfg.tw : Nat) : Int) :=
    Int.emod_nonneg _ (by have := Nat.two_pow_pos s.cfg.tw; omega)
  unfold stale elapsed sampledNow
  simp only [decide_eq_true_eq]
  omega

/-- Any instruction that answers: a TICK, RESET, a receiver row, or a port. -/
theorem exec_cases {i : Instr} {s t : State} (h : exec i s = .next t) :
    (∃ d, i = .tick d ∧ execTick d s = .next t) ∨ (∃ d, i = .reset d ∧ execReset d s = .next t) ∨
    (∃ r, performRow r s = .next t ∧ ((∃ b, i = .feed b ∧ s.started = true ∧ r = decodeRxdec (rxWord s.rxState b)) ∨
      i = r.instr)) ∨
    (∃ c d, i = .crcStep c d ∧ t = driveCrcOut (crc8Step c d) s) ∨
    (∃ x y, i = .serpMap x y ∧ x < s.cfg.w ∧ y < s.cfg.h ∧ t = driveMapSlot (serp s.cfg x y) s) := by
  cases i with
  | feed b =>
    have := execFeed_cases h
    exact .inr (.inr (.inl ⟨_, this.2, .inl ⟨b, rfl, this.1, rfl⟩⟩))
  | tick d => exact .inl ⟨d, rfl, h⟩
  | reset d => exact .inr (.inl ⟨d, rfl, h⟩)
  | evtReserved d => cases h
  | rxSync1Hit => exact .inr (.inr (.inl ⟨.sync1Hit, h, .inr rfl⟩))
  | rxSync1Miss b => exact .inr (.inr (.inl ⟨.sync1Miss b, h, .inr rfl⟩))
  | rxSync2Hit => exact .inr (.inr (.inl ⟨.sync2Hit, h, .inr rfl⟩))
  | rxSync2Miss b => exact .inr (.inr (.inl ⟨.sync2Miss b, h, .inr rfl⟩))
  | rxFrameId b => exact .inr (.inr (.inl ⟨.frameId b, h, .inr rfl⟩))
  | rxLenLow b => exact .inr (.inr (.inl ⟨.lenLow b, h, .inr rfl⟩))
  | rxLenHigh b => exact .inr (.inr (.inl ⟨.lenHigh b, h, .inr rfl⟩))
  | rxPayload b => exact .inr (.inr (.inl ⟨.payload b, h, .inr rfl⟩))
  | rxCrc b => exact .inr (.inr (.inl ⟨.crc b, h, .inr rfl⟩))
  | rxIllegalState b => cases h
  | crcStep c d => cases h; exact .inr (.inr (.inr (.inl ⟨c, d, rfl, rfl⟩)))
  | serpMap x y =>
    simp only [exec, execSerpMap] at h
    split at h
    · next hr => cases h; exact .inr (.inr (.inr (.inr ⟨x, y, rfl, hr.1, hr.2, rfl⟩)))
    · cases h

/-- A receiver row that answers has either left display, flushes and timestamp alone and emitted something else
than a FrameReady, or applied a payload of `L` bytes. -/
theorem performRow_cases {r : RxRow} {s t : State} (h : performRow r s = .next t) :
    (t = { s with rxState := t.rxState, frameId := t.frameId, declaredLength := t.declaredLength,
                  bytesReceived := t.bytesReceived, pay := t.pay, results := t.results } ∧
      ∃ e, t.results = e :: s.results ∧ ∀ p, e ≠ .frameReady p) ∨
    (∃ b m, r = .crc b ∧ checksum (payload s) = b ∧
      applyCells (payload s) (gridCells s.cfg) (emit (.frameReady (payload s)) s) =
        .ok (setPix m (emit (.frameReady (payload s)) s)) ∧
      t = setRxState 0 (stampLastOk (flush (setPix m (emit (.frameReady (payload s)) s))))) := by
  cases r with
  | lenHigh b =>
    rcases execRxLenHigh_cases h with ⟨_, rfl⟩ | ⟨_, rfl⟩ <;> exact .inl ⟨rfl, _, rfl, by simp⟩
  | payload b =>
    obtain ⟨_, ⟨_, rfl⟩ | ⟨_, rfl⟩⟩ := execRxPayload_cases h <;> exact .inl ⟨rfl, _, rfl, by simp⟩
  | crc b =>
    rcases execRxCrc_cases h with ⟨hc, m, hm, rfl⟩ | ⟨_, rfl⟩
    · exact .inr ⟨b, m, rfl, hc, hm, rfl⟩
    · exact .inl ⟨rfl, _, rfl, by simp⟩
  | illegal b => cases h
  | _ => cases h; exact .inl ⟨rfl, _, rfl, by simp⟩

end Sys2Proof.Machine
end

