-- ==== Sys2Proof/Laws/Effects.lean ====
section
/-! SUPPORT. Everything the larger operations do, as equations: the loops over the pixel buffer depend on the
configuration, the pixel memory and the payload alone, and a LenHigh byte, a CRC byte and a TICK always answer. -/

namespace Sys2Proof.Machine

/-- A blackout loop does the same to two states of one configuration and one pixel memory. -/
theorem blackenSlots_congr (l : List Nat) {s t : State} (hc : s.cfg = t.cfg) (hp : s.pix = t.pix)
    {m : List Host.Cell} (h : blackenSlots l s = .ok (setPix m s)) : blackenSlots l t = .ok (setPix m t) := by
  induction l generalizing s t with
  | nil =>
    simp only [blackenSlots, Except.ok.injEq] at h ⊢
    have := congrArg State.pix h
    simp only [setPix_pix] at this
    rw [← this, hp]; rfl
  | cons k l ih =>
    simp only [blackenSlots, writePixel, ← hc, ← hp] at h ⊢
    by_cases hk : k < slotCount s.cfg
    · simp only [hk, if_true] at h ⊢
      exact ih (s := setPix (storePixel s.pix k Rgb.black) s) (t := setPix (storePixel s.pix k Rgb.black) t) hc rfl h
    · simp [hk] at h

theorem blackenAll_congr {s t : State} (hc : s.cfg = t.cfg) (hp : s.pix = t.pix) {m : List Host.Cell}
    (h : blackenAll s = .ok (setPix m s)) : blackenAll t = .ok (setPix m t) := by
  unfold blackenAll at *; rw [← hc]; exact blackenSlots_congr _ hc hp h

/-- The writes of an apply do the same to two states of one configuration and one pixel memory. -/
theorem applyCells_congr (p : List Byte) (l : List (Nat × Nat)) {s t : State} (hc : s.cfg = t.cfg)
    (hp : s.pix = t.pix) {m : List Host.Cell} (h : applyCells p l s = .ok (setPix m s)) :
    applyCells p l t = .ok (setPix m t) := by
  induction l generalizing s t with
  | nil =>
    simp only [applyCells, Except.ok.injEq] at h ⊢
    have := congrArg State.pix h
    simp only [setPix_pix] at this
    rw [← this, hp]; rfl
  | cons k l ih =>
    obtain ⟨x, y⟩ := k
    simp only [applyCells, writePixel, ← hc, ← hp] at h ⊢
    cases hpx : pixelAt p (cellIndex s.cfg x y) with
    | none => simp [hpx] at h
    | some px =>
      simp only [hpx] at h ⊢
      by_cases hk : serp s.cfg x y < slotCount s.cfg
      · simp only [hk, if_true] at h ⊢
        exact ih (s := setPix (storePixel s.pix _ px) s) (t := setPix (storePixel s.pix _ px) t) hc rfl h
      · simp [hk] at h

/-- Both cases of a LenHigh byte. -/
theorem execRxLenHigh_eq (b : Byte) (s : State) :
    ((s.declaredLength.setHigh b).value.toNat = payloadLen s.cfg →
      execRxLenHigh b s =
        .next (emit .idle (setRxState 5 (setBytesReceived 0 (setDeclaredLength (s.declaredLength.setHigh b) s))))) ∧
    ((s.declaredLength.setHigh b).value.toNat ≠ payloadLen s.cfg →
      execRxLenHigh b s =
        .next (reject .length (setBytesReceived 0 (setDeclaredLength (s.declaredLength.setHigh b) s)))) :=
  ⟨fun h => by simp only [execRxLenHigh, h, if_true], fun h => by simp only [execRxLenHigh, h, if_false]⟩

/-- Both cases of a CRC byte. -/
theorem execRxCrc_eq (b : Byte) (s : State) :
    (checksum (payload s) = b → ∃ m, applyCells (payload s) (gridCells s.cfg) s = .ok (setPix m s) ∧
      execRxCrc b s = .next (setRxState 0 (stampLastOk (flush (setPix m (emit (.frameReady (payload s)) s)))))) ∧
    (checksum (payload s) ≠ b → execRxCrc b s = .next (reject .crc s)) := by
  obtain ⟨m, h1, h2, _⟩ := applyFrame_spec (p := payload s) (s := emit (.frameReady (payload s)) s) (by simp)
  refine ⟨fun hc => ⟨m, ?_, ?_⟩, fun hc => ?_⟩
  · exact applyCells_congr (s := emit (.frameReady (payload s)) s) (t := s) (payload s) _ rfl rfl h2
  · simp only [execRxCrc, hc, if_true, h1]
  · simp only [execRxCrc, hc, if_false]

/-- Both cases of a TICK of a running block. -/
theorem execTick_eq (d : Byte) (s : State) (hs : s.started = true) :
    (stale s = false → execTick d s = .next (emit .idle s)) ∧
    (stale s = true →
      ∃ m, blackenAll s = .ok (setPix m s) ∧ execTick d s = .next (emit .idle (flush (setPix m s)))) := by
  obtain ⟨m, hm, _⟩ := blackenAll_spec s
  exact ⟨fun h => by simp [execTick, afterReset, hs, h],
    fun h => ⟨m, hm, by simp [execTick, afterReset, hs, h, blackout, hm]⟩⟩

/-- A payload depends on the configuration and the bytes of PAY alone. -/
theorem payload_eq_of_bytes {s t : State} (hc : s.cfg = t.cfg)
    (h : ∀ a, a < payloadLen s.cfg → readByte s .pay a = readByte t .pay a) : payload s = payload t := by
  unfold payload; rw [← hc]
  exact List.map_congr_left fun a ha => h a (by simpa using ha)

end Sys2Proof.Machine
end

