-- ==== Sys2Proof/Laws/PerInstr.lean ====
section
/-! SUPPORT. A family of statements with one lemma for each constructor of `Instr`: the encoded word carries the
match bits of its row of `spec/opcode_table.json` under the row's mask, and a row of no bits is a port with the
instruction's operands. -/

namespace Sys2Proof

/-- The encoded word of an instruction against the match and mask columns of its row. -/
def Laws.TableBits.Statement : Instr → Prop
  | .feed b => ∃ w, encode (.feed b) = .evt w ∧ w &&& 0x300 = 0x000
  | .tick d => ∃ w, encode (.tick d) = .evt w ∧ w &&& 0x300 = 0x100
  | .reset d => ∃ w, encode (.reset d) = .evt w ∧ w &&& 0x300 = 0x200
  | .evtReserved d => ∃ w, encode (.evtReserved d) = .evt w ∧ w &&& 0x300 = 0x300
  | .rxSync1Hit => ∃ w, encode (.rxSync1Hit) = .rxdec w ∧ w &&& 0x7FF = 0x0AA
  | .rxSync1Miss b => ∃ w, encode (.rxSync1Miss b) = .rxdec w ∧ w &&& 0x700 = 0x000
  | .rxSync2Hit => ∃ w, encode (.rxSync2Hit) = .rxdec w ∧ w &&& 0x7FF = 0x155
  | .rxSync2Miss b => ∃ w, encode (.rxSync2Miss b) = .rxdec w ∧ w &&& 0x700 = 0x100
  | .rxFrameId b => ∃ w, encode (.rxFrameId b) = .rxdec w ∧ w &&& 0x700 = 0x200
  | .rxLenLow b => ∃ w, encode (.rxLenLow b) = .rxdec w ∧ w &&& 0x700 = 0x300
  | .rxLenHigh b => ∃ w, encode (.rxLenHigh b) = .rxdec w ∧ w &&& 0x700 = 0x400
  | .rxPayload b => ∃ w, encode (.rxPayload b) = .rxdec w ∧ w &&& 0x700 = 0x500
  | .rxCrc b => ∃ w, encode (.rxCrc b) = .rxdec w ∧ w &&& 0x700 = 0x600
  | .rxIllegalState b => ∃ w, encode (.rxIllegalState b) = .rxdec w ∧ w &&& 0x700 = 0x700
  | .crcStep c d => encode (.crcStep c d) = .crcPort c d
  | .serpMap x y => encode (.serpMap x y) = .mapPort x y

theorem evtWord_masked (k : BitVec 2) (d : Byte) : evtWord k d &&& 0x300 = evtWord k 0 := by
  have : ∀ k : BitVec 2, ∀ d : BitVec 8, evtWord k d &&& 0x300 = evtWord k 0 := by decide +kernel
  exact this k d

theorem Laws.TableBits.feed (b : Byte) : Statement (.feed b) := ⟨_, rfl, (evtWord_masked 0 b).trans (by decide)⟩
theorem Laws.TableBits.tick (d : Byte) : Statement (.tick d) := ⟨_, rfl, (evtWord_masked 1 d).trans (by decide)⟩
theorem Laws.TableBits.reset (d : Byte) : Statement (.reset d) := ⟨_, rfl, (evtWord_masked 2 d).trans (by decide)⟩
theorem Laws.TableBits.evtReserved (d : Byte) : Statement (.evtReserved d) := ⟨_, rfl, (evtWord_masked 3 d).trans (by decide)⟩
theorem Laws.TableBits.rxSync1Hit : Statement .rxSync1Hit := ⟨_, rfl, by decide⟩
theorem Laws.TableBits.rxSync1Miss (b : Byte) : Statement (.rxSync1Miss b) := ⟨_, rfl, (rxWord_or 0 b).trans (by decide)⟩
theorem Laws.TableBits.rxSync2Hit : Statement .rxSync2Hit := ⟨_, rfl, by decide⟩
theorem Laws.TableBits.rxSync2Miss (b : Byte) : Statement (.rxSync2Miss b) := ⟨_, rfl, (rxWord_or 1 b).trans (by decide)⟩
theorem Laws.TableBits.rxFrameId (b : Byte) : Statement (.rxFrameId b) := ⟨_, rfl, (rxWord_or 2 b).trans (by decide)⟩
theorem Laws.TableBits.rxLenLow (b : Byte) : Statement (.rxLenLow b) := ⟨_, rfl, (rxWord_or 3 b).trans (by decide)⟩
theorem Laws.TableBits.rxLenHigh (b : Byte) : Statement (.rxLenHigh b) := ⟨_, rfl, (rxWord_or 4 b).trans (by decide)⟩
theorem Laws.TableBits.rxPayload (b : Byte) : Statement (.rxPayload b) := ⟨_, rfl, (rxWord_or 5 b).trans (by decide)⟩
theorem Laws.TableBits.rxCrc (b : Byte) : Statement (.rxCrc b) := ⟨_, rfl, (rxWord_or 6 b).trans (by decide)⟩
theorem Laws.TableBits.rxIllegalState (b : Byte) : Statement (.rxIllegalState b) := ⟨_, rfl, (rxWord_or 7 b).trans (by decide)⟩
theorem Laws.TableBits.crcStep (c d : Byte) : Statement (.crcStep c d) := rfl
theorem Laws.TableBits.serpMap (x y : Nat) : Statement (.serpMap x y) := rfl

end Sys2Proof
end

