-- ==== Sys2Proof/Tests/Slice0.lean ====
section
/-! SUPPORT. The model against the spec's own vectors (`95_test_vectors.md`; each test names its vector), the
smoke tests of `WellFormed`, and for each statement with hypotheses a state that meets all of them. A test is one
step, one decoding or one checksum. -/

namespace Sys2Proof.Machine.Tests

/-! ### Helpers -/

/-- The small grid of `95_test_vectors.md`: `W = H = 2`, `T = 600`, `TW = 32`. -/
def small : Config := { w := 2, h := 2, t := 600, tw := 32, brightness := 0, currentLimit := 0 }

/-- The largest payload the spec admits: `L = 65535`. -/
def widest : Config := { small with w := 21845, h := 1 }

/-- A running block on the small grid, the receiver in a state. -/
def inState (rx : BitVec 3) : State := { State.reset with cfg := small, rxState := rx }

/-- A running block that hunts for SYNC1, with inputs presented. -/
def presented (inputs : List Input) : State := { inState 0 with pending := inputs }

/-- A running block with a whole payload received. -/
def received (p : List Byte) : State :=
  { inState 6 with pay := (List.range 12).zip p, bytesReceived := 12, declaredLength := ⟨0, 12⟩ }

/-- A pixel from its three bytes. -/
def rgb (n : Nat) : Rgb := ⟨BitVec.ofNat 8 (n / 65536), BitVec.ofNat 8 (n / 256), BitVec.ofNat 8 n⟩

/-- The payloads `P` and `Q` of `95_test_vectors.md`. -/
def payloadP : List Byte := [0xFF, 0, 0, 0, 0xFF, 0, 0, 0, 0xFF, 0xFF, 0xFF, 0xFF]
def payloadQ : List Byte := [0x10, 0x20, 0x30, 0x40, 0x50, 0x60, 0x70, 0x80, 0x90, 0xA0, 0xB0, 0xC0]

/-- A buffer in which every slot is `0x010203`. -/
def lit : List Host.Cell := (List.range 12).map fun a => (a, BitVec.ofNat 8 (a % 3 + 1))

/-- A field of the next state, `none` at a stop. -/
def got {α : Type} (f : State → α) : Out → Option α
  | .next s => some (f s)
  | _ => none

/-- The reason of a refusal. -/
def reason : Out → Option Refusal
  | .refused r => some r
  | _ => none

/-- Whether the model answers a next state. -/
def answers : Out → Bool
  | .next _ => true
  | _ => false

theorem exists_of_answers {o : Out} (h : answers o = true) : ∃ t, o = .next t := by
  cases o with
  | next s => exact ⟨s, rfl⟩
  | _ => cases h

/-! ### WellFormed -/

/-- The byte of a HIT row is no operand of its MISS row (`30_encoding.md` R65). -/
theorem test_sync1Miss_of_sync1_illFormed : (Instr.rxSync1Miss 0xAA).wellFormed = false := by decide
theorem test_sync2Miss_of_sync2_illFormed : (Instr.rxSync2Miss 0x55).wellFormed = false := by decide
theorem test_sync1Miss_wellFormed : (Instr.rxSync1Miss 0x55).wellFormed = true := by decide

/-! ### Decoding: words written out from `30_encoding.md` R63 and R65, `{kind, data}` and `{rx_state, b}` -/

theorem test_decode_feed : decode (.evt 0b00_10101010#10) = .feed 0xAA := by decide
theorem test_decode_tick : decode (.evt 0b01_00000000#10) = .tick 0 := by decide
theorem test_decode_reset : decode (.evt 0b10_01010101#10) = .reset 0x55 := by decide
theorem test_decode_evtReserved : decode (.evt 0b11_11111111#10) = .evtReserved 0xFF := by decide
theorem test_decode_sync1Hit : decode (.rxdec 0b000_10101010#11) = .rxSync1Hit := by decide
theorem test_decode_sync1Miss : decode (.rxdec 0b000_10101011#11) = .rxSync1Miss 0xAB := by decide
theorem test_decode_sync2Hit : decode (.rxdec 0b001_01010101#11) = .rxSync2Hit := by decide
theorem test_decode_sync2Miss : decode (.rxdec 0b001_10101010#11) = .rxSync2Miss 0xAA := by decide
theorem test_decode_frameId : decode (.rxdec 0b010_00000001#11) = .rxFrameId 1 := by decide
theorem test_decode_lenLow : decode (.rxdec 0b011_00001100#11) = .rxLenLow 0x0C := by decide
theorem test_decode_lenHigh : decode (.rxdec 0b100_00000011#11) = .rxLenHigh 3 := by decide
theorem test_decode_payload : decode (.rxdec 0b101_01010101#11) = .rxPayload 0x55 := by decide
theorem test_decode_crc : decode (.rxdec 0b110_01000010#11) = .rxCrc 0x42 := by decide
theorem test_decode_illegal : decode (.rxdec 0b111_00000000#11) = .rxIllegalState 0 := by decide
theorem test_decode_crcPort : decode (.crcPort 0x12 0x34) = .crcStep 0x12 0x34 := by decide
theorem test_decode_mapPort : decode (.mapPort 3 1) = .serpMap 3 1 := by decide

/-- The words as `spec/opcode_table.json` numbers them, by the width of the row and in whole bytes (log 12). -/
theorem test_tableWord_evt : decodeTableWord 10 0x1FF = some (.tick 0xFF) ∧
    decodeTableWord 16 0x1FF = some (.tick 0xFF) := by decide
theorem test_tableWord_rxdec : decodeTableWord 11 0x0AA = some .rxSync1Hit ∧
    decodeTableWord 16 0x642 = some (.rxCrc 0x42) := by decide
theorem test_tableWord_port : decodeTableWord 0 0 = some (.crcStep 0 0) := by decide
theorem test_tableWord_refuses : decodeTableWord 16 0x800 = none ∧ decodeTableWord 11 0x800 = none ∧
    decodeTableWord 10 0x400 = none := by decide

/-! ### FEED -/

/-- RX-5: in AwaitingSync2 an `AA` is consumed, not taken as a new SYNC1. -/
theorem test_feed_sync2_of_sync1 : got (fun s => (s.rxState, s.results))
    (step { inState 1 with pending := [feedEvent 0xAA 3] }) = some (0, [.idle]) := by decide

/-- RX-15: a sync value inside the payload is data. -/
theorem test_feed_sync_in_payload : got (fun s => (s.rxState, s.bytesReceived, readByte s .pay 0))
    (exec (.feed 0xAA) (inState 5)) = some (5, 1, 0xAA) := by decide

/-! ### TICK -/

/-- WD-1: 600 ms after the last frame nothing happens. -/
theorem test_tick_at_threshold : got (fun s => (s.pix == lit, s.flushes))
    (step { inState 0 with pix := lit, pending := [tickEvent 600] }) = some (true, []) := by decide

/-- WD-2: at 601 ms the buffer goes black with one flush, and the timestamp stays. -/
theorem test_tick_stale : got (fun s => (s.pix, s.flushes, s.lastOkMs))
    (step { inState 0 with pix := lit, pending := [tickEvent 601] }) =
      some ([], [⟨List.replicate 4 (rgb 0), 0, 0⟩], 0) := by decide

/-! ### RESET -/

/-- RST-1: RESET at power-on. -/
theorem test_reset_powerOn : got (fun s => (s.rxState, s.bytesReceived, s.lastOkMs, s.flushes, s.results))
    (step { State.powerOn small with pending := [resetEvent 0] }) = some (0, 0, 0, [], [.idle]) := by decide

/-- RST-4: RESET in the middle of a payload. -/
theorem test_reset_midFrame : got (fun s => (s.rxState, s.bytesReceived, s.lastOkMs, s.pix.length, s.flushes.length))
    (step { inState 5 with bytesReceived := 7, pix := lit, lastOkMs := 10, pending := [resetEvent 50] }) =
      some (0, 0, 50, 0, 0) := by decide +kernel

/-! ### EVT_RESERVED and the other refusals -/

/-- REF-4. -/
theorem test_evtReserved : reason (step { inState 0 with pending := [.event 0x3AA 0] }) = some .reservedEvent := by
  decide

/-- REF-1, REF-2 and REF-3: the grids at the edge. -/
theorem test_configurations : legalConfig { small with w := 0 } = false ∧
    legalConfig { small with w := 128, h := 171 } = false ∧ legalConfig { small with w := 151, h := 144 } = true ∧
    legalConfig widest = true := by decide

/-! ### The receiver rows -/

/-- RX-1. -/
theorem test_sync1Hit : got (·.rxState) (exec .rxSync1Hit (inState 0)) = some 1 := by decide
/-- RX-2. -/
theorem test_sync1Miss : got (·.rxState) (exec (.rxSync1Miss 0x55) (inState 0)) = some 0 := by decide
/-- RX-4. -/
theorem test_sync2Hit : got (·.rxState) (exec .rxSync2Hit (inState 1)) = some 2 := by decide
/-- RX-6. -/
theorem test_sync2Miss : got (·.rxState) (exec (.rxSync2Miss 0) (inState 1)) = some 0 := by decide
/-- RX-7: a sync value as FRAME_ID is data. -/
theorem test_frameId : got (fun s => (s.rxState, s.frameId)) (exec (.rxFrameId 0xAA) (inState 2)) =
    some (3, 0xAA) := by decide
/-- RX-8: only the low byte is written. -/
theorem test_lenLow : got (fun s => (s.rxState, s.declaredLength.value))
    (exec (.rxLenLow 0x0C) { inState 3 with declaredLength := ⟨0xAB, 0xCD⟩ }) = some (4, 0xAB0C) := by decide
/-- RX-9. -/
theorem test_lenHigh_match : got (fun s => (s.rxState, s.declaredLength.value, s.bytesReceived))
    (exec (.rxLenHigh 0) { inState 4 with declaredLength := ⟨0xAB, 0x0C⟩, bytesReceived := 9 }) =
      some (5, 0x000C, 0) := by decide
/-- RX-10. -/
theorem test_lenHigh_mismatch : got (fun s => (s.rxState, s.declaredLength.value, s.results))
    (exec (.rxLenHigh 1) { inState 4 with declaredLength := ⟨0, 0x0C⟩ }) =
      some (0, 0x010C, [.rejected .length]) := by decide
/-- RX-16. -/
theorem test_payload_tenth : got (fun s => (s.rxState, s.bytesReceived, readByte s .pay 10))
    (exec (.rxPayload 0x33) { inState 5 with bytesReceived := 10 }) = some (5, 11, 0x33) := by decide
/-- RX-17. -/
theorem test_payload_last : got (fun s => (s.rxState, s.bytesReceived, readByte s .pay 11))
    (exec (.rxPayload 0x44) { inState 5 with bytesReceived := 11 }) = some (6, 12, 0x44) := by decide
/-- MAP-10: the pixels of `Q`, the odd row reversed. -/
theorem test_crc_applies : got (fun s => (s.rxState, pixels s, s.flushes.length, s.results, s.lastOkMs))
    (exec (.rxCrc 0xDD) { received payloadQ with nowMs := 20 }) =
      some (0, [rgb 0x102030, rgb 0x405060, rgb 0xA0B0C0, rgb 0x708090], 1, [.frameReady payloadQ], 20) := by
  decide +kernel
/-- RX-18. -/
theorem test_crc_rejects : got (fun s => (s.rxState, s.pix == lit, s.flushes, s.results, s.lastOkMs))
    (exec (.rxCrc 0xDC) { received payloadQ with nowMs := 20, pix := lit }) =
      some (0, true, [], [.rejected .crc], 0) := by decide +kernel
/-- RX-22. -/
theorem test_illegalState : answers (exec (.rxIllegalState 0) (inState 7)) = false := by decide

/-! ### The ports -/

/-- CRC-5. -/
theorem test_crcStep : got (·.crcOut) (exec (.crcStep 0x12 0x34) (inState 0)) = some 0xF2 := by decide
/-- CRC-25 and CRC-26: the check value over "123456789", and the checksum of `P`. -/
theorem test_checksum : checksum [0x31, 0x32, 0x33, 0x34, 0x35, 0x36, 0x37, 0x38, 0x39] = 0xF4 ∧
    checksum payloadP = 0x42 := by decide +kernel
/-- MAP-2: the second row of the 4 by 3 grid. -/
theorem test_serpMap_oddRow : (List.range 4).map (fun x => got (·.mapSlot)
    (exec (.serpMap x 1) { inState 0 with cfg := { small with w := 4, h := 3 } })) =
      [some 7, some 6, some 5, some 4] := by decide
/-- MAP-7. -/
theorem test_serpMap_outside : reason (exec (.serpMap 2 0) (inState 0)) = some .mapperInputOutOfRange := by decide

/-! ### Witnesses: for each statement, operands and a state that meet its hypotheses together -/

theorem witness_DecodeOfEncodeIsTheInstruction : (Instr.rxSync1Miss 0xAB).wellFormed = true ∧
    (Instr.rxSync2Miss 0x54).wellFormed = true := by decide

theorem witness_StepRunsTheDecodedInstruction_event : legalConfig (inState 0).cfg = true ∧
    { inState 0 with pending := [.event 0x3FF 9] }.pending = [Input.event 0x3FF 9] := by decide
theorem witness_StepRunsTheDecodedInstruction_crcPort : legalConfig (inState 0).cfg = true ∧
    { inState 0 with pending := [.crcPort 0xFF 0] }.pending = [Input.crcPort 0xFF 0] := by decide
theorem witness_StepRunsTheDecodedInstruction_mapPort : legalConfig (inState 0).cfg = true ∧
    { inState 0 with pending := [.mapPort 1 1] }.pending = [Input.mapPort 1 1] := by decide
theorem witness_StepWithoutInputHoldsTheState : (inState 0).pending = [] := by decide

theorem witness_ConfigurationFixedWhileRunning_step : { inState 0 with pending := [.configure small] }.started = true ∧
    ∃ t, step { inState 0 with pending := [.configure small] } = .next t :=
  ⟨rfl, exists_of_answers (by decide)⟩
theorem witness_ConfigurationFixedWhileRunning_refused :
    { inState 0 with pending := [.configure widest] }.started = true ∧
    { inState 0 with pending := [.configure widest] }.pending = [Input.configure widest] ∧
    legalConfig widest = true ∧ widest ≠ { inState 0 with pending := [.configure widest] }.cfg := by decide

theorem witness_IllegalGridIsRefused_zero :
    { inState 0 with cfg := { small with w := 0 }, pending := [.mapPort 0 0] }.pending = [Input.mapPort 0 0] ∧
    (∀ c, Input.mapPort 0 0 ≠ .configure c) ∧ ({ small with w := 0 } : Config).w < 1 ∧
    ({ small with h := 0 } : Config).h < 1 := ⟨by decide, by simp, by decide, by decide⟩
theorem witness_IllegalGridIsRefused_large :
    { inState 0 with pending := [.configure { small with w := 21846, h := 1 }] }.pending =
      [Input.configure { small with w := 21846, h := 1 }] ∧
    ({ small with w := 21846, h := 1 } : Config).w * ({ small with w := 21846, h := 1 } : Config).h * 3 > 65535 := by
  decide

theorem witness_FeedPerformsTheSelectedRow : (inState 6).started = true := by decide
theorem witness_SyncRowsMoveTheReceiver : (inState 0).started = true ∧ (inState 0).rxState = 0 ∧ (0xAB : Byte) ≠ 0xAA ∧
    (inState 1).rxState = 1 ∧ (0x54 : Byte) ≠ 0x55 := by decide
theorem witness_HeaderRowsStoreTheirByte :
    (inState 2).started = true ∧ (inState 2).rxState = 2 ∧ (inState 3).rxState = 3 := by
  decide
theorem witness_LenHighChecksTheLength_match :
    { inState 4 with cfg := widest, declaredLength := ⟨0, 0xFF⟩ }.started = true ∧
    { inState 4 with cfg := widest, declaredLength := ⟨0, 0xFF⟩ }.rxState = 4 ∧
    (0xFF : Byte).toNat * 256 + { inState 4 with cfg := widest, declaredLength := ⟨0, 0xFF⟩ }.declaredLength.lo.toNat =
      payloadLen { inState 4 with cfg := widest, declaredLength := ⟨0, 0xFF⟩ }.cfg := by decide
theorem witness_LenHighChecksTheLength_mismatch :
    (0xFF : Byte).toNat * 256 + { inState 4 with cfg := widest, declaredLength := ⟨0, 0xFE⟩ }.declaredLength.lo.toNat ≠
      payloadLen { inState 4 with cfg := widest, declaredLength := ⟨0, 0xFE⟩ }.cfg ∧
    (0 : Byte).toNat * 256 + { inState 4 with declaredLength := ⟨0, 13⟩ }.declaredLength.lo.toNat ≠
      payloadLen { inState 4 with declaredLength := ⟨0, 13⟩ }.cfg := by decide
theorem witness_PayloadByteIsStoredAndCounted_first : (inState 5).bytesReceived.toNat < payloadLen (inState 5).cfg ∧
    payloadLen (inState 5).cfg ≤ 65535 ∧ (inState 5).started = true ∧ (inState 5).rxState = 5 := by decide
theorem witness_PayloadByteIsStoredAndCounted_last :
    { inState 5 with cfg := widest, bytesReceived := 65534 }.bytesReceived.toNat < payloadLen widest ∧
    payloadLen { inState 5 with cfg := widest, bytesReceived := 65534 }.cfg ≤ 65535 ∧
    { inState 5 with cfg := widest, bytesReceived := 65534 }.rxState = 5 := by decide
theorem witness_PayloadBeyondTheBufferFaults :
    payloadLen { inState 5 with bytesReceived := 12 }.cfg ≤
      { inState 5 with bytesReceived := 12 }.bytesReceived.toNat := by decide
theorem witness_CrcByteAppliesOrRejects_match :
    checksum (payload (received payloadP)) = 0x42 ∧ (received payloadP).started = true ∧
    (received payloadP).rxState = 6 := by decide +kernel
theorem witness_CrcByteAppliesOrRejects_mismatch : checksum (payload (received payloadP)) ≠ 0x43 := by decide +kernel
theorem witness_IllegalReceiverStateFaults : (inState 7).started = true ∧ (inState 7).rxState = 7 := by decide
theorem witness_FeedAlwaysCompletesWithOneResult : (inState 5).started = true ∧ (inState 5).rxState ≠ 7 ∧
    { inState 5 with bytesReceived := 11 }.bytesReceived.toNat < payloadLen small := by decide
theorem witness_OnlyFeedAndResetWriteTheReceiver : (∃ t, exec (.tick 0) (inState 5) = .next t) ∧
    (∃ t, exec (.crcStep 1 2) (inState 5) = .next t) ∧ ∃ t, exec (.serpMap 1 1) (inState 5) = .next t :=
  ⟨exists_of_answers (by decide), exists_of_answers (by decide), exists_of_answers (by decide)⟩
theorem witness_RepeatedSync1IsNotRecognised : (inState 0).started = true ∧ legalConfig (inState 0).cfg = true ∧
    (inState 0).rxState = 0 ∧
    { inState 0 with pending := [.event 0x0AA 1, .event 0x0AA 1, .event 0x055 2] }.pending =
      feedsAt [0xAA, 0xAA, 0x55] [1, 1, 2] ++ [] := by decide
theorem witness_WrongLengthHeaderIsRejected :
    (11 < 65536 ∧ 11 ≠ payloadLen small) ∧ (13 < 65536 ∧ 13 ≠ payloadLen small) ∧
    0 ≠ payloadLen small ∧ 65535 ≠ payloadLen small ∧ (inState 0).rxState = 0 ∧ [1, 1, 2, 2, 2].length = 5 ∧
    { inState 0 with pending := feedsAt [0xAA, 0x55, 1, 11, 0] [1, 1, 2, 2, 2] }.pending =
      feedsAt (headerBytes 1 11) [1, 1, 2, 2, 2] ++ [] := by decide
theorem witness_OneFrameGivesOneFrameReady : (inState 0).started = true ∧ legalConfig (inState 0).cfg = true ∧
    (presented []).rxState = 0 ∧ payloadP.length = payloadLen small ∧ (List.range 18).length = payloadLen small + 6 ∧
    (presented (feedsAt ([0xAA, 0x55, 7, 0x0C, 0] ++ payloadP ++ [0x42]) (List.range 18))).pending =
      feedsAt (frameBytes small 7 payloadP) (List.range 18) ++ [] := by decide +kernel
theorem witness_GoodFrameAfterCrcRejectionIsAccepted : (inState 0).started = true ∧
    legalConfig (inState 0).cfg = true ∧ (presented []).rxState = 0 ∧ payloadP.length = payloadLen small ∧
    payloadQ.length = payloadLen small ∧ (0x43 : Byte) ≠ checksum payloadP ∧
    (List.replicate 18 5).length = payloadLen small + 6 ∧
    (presented (feedsAt ([0xAA, 0x55, 1, 0x0C, 0] ++ payloadP ++ [0x43] ++ [0xAA, 0x55, 2, 0x0C, 0] ++ payloadQ ++
      [0xDD]) (List.replicate 36 5))).pending =
      feedsAt (frameBytesWith small 1 payloadP 0x43) (List.replicate 18 5) ++
        (feedsAt (frameBytes small 2 payloadQ) (List.replicate 18 5) ++ []) := by decide +kernel
theorem witness_ArrivalTimesDoNotChangeResults : [1, 2].length = [(0xAA : Byte), 0x55].length ∧
    [7, 7].length = [(0xAA : Byte), 0x55].length := by decide

theorem witness_SerpMapPortFollowsTheRows :
    (1 < small.w ∧ 0 < small.h ∧ 0 % 2 = 0) ∧ (1 < small.w ∧ 1 < small.h ∧ 1 % 2 = 1) ∧
    2 ≥ small.w ∧ 2 ≥ small.h := by decide
theorem witness_SerpIsABijection :
    (1 < small.w ∧ 1 < small.h) ∧ serp small 0 1 = serp small 0 1 ∧ 3 < small.w * small.h := by
  decide
theorem witness_SerpInverseMap : (1 < small.w * small.h ∧ 1 / small.w % 2 = 0) ∧
    (3 < small.w * small.h ∧ 3 / small.w % 2 = 1) := by decide
theorem witness_FlushOnlyFromFrameOrBlackout : (∃ t, exec (.tick 0) { inState 0 with nowMs := 601 } = .next t) ∧
    (∃ t, exec (.reset 0) (inState 0) = .next t) ∧ ∃ t, exec (.rxCrc 0x42) (received payloadP) = .next t :=
  ⟨exists_of_answers (by decide +kernel), exists_of_answers (by decide +kernel), exists_of_answers (by decide +kernel)⟩
theorem witness_CrcIsLinear : payloadP.length = payloadQ.length := by decide
theorem witness_SingleBitErrorsAreDetected : 0 < 8 ∧ 7 < 8 := by decide

theorem witness_TickBlanksExactlyWhenStale_within : { inState 0 with nowMs := 600 }.started = true ∧
    ((({ inState 0 with nowMs := 600 }.nowMs % 2 ^ small.tw : Nat) : Int) - ((inState 0).lastOkMs : Int)) %
      ((2 ^ small.tw : Nat) : Int) ≤ (small.t : Int) := by decide
theorem witness_TickBlanksExactlyWhenStale_beyond : { inState 0 with nowMs := 601 }.started = true ∧
    ((({ inState 0 with nowMs := 601 }.nowMs % 2 ^ small.tw : Nat) : Int) - ((inState 0).lastOkMs : Int)) %
      ((2 ^ small.tw : Nat) : Int) > (small.t : Int) := by decide
theorem witness_TimeWrapHidesAnOutage_first :
    { inState 0 with lastOkMs := 3, nowMs := 4294967299 }.started = true ∧ small.t < 2 ^ small.tw ∧
    { inState 0 with lastOkMs := 3, nowMs := 4294967299 }.nowMs = 3 + 4294967296 ∧
    2 ^ small.tw ≤ 4294967296 ∧ 4294967296 ≤ 2 ^ small.tw + small.t := by decide
theorem witness_TimeWrapHidesAnOutage_last :
    { inState 0 with lastOkMs := 3, nowMs := 4294967899 }.nowMs = 3 + 4294967896 ∧
    2 ^ small.tw ≤ 4294967896 ∧ 4294967896 ≤ 2 ^ small.tw + small.t := by decide
/-- WD-7. -/
theorem witness_BackwardClockBlanks : { inState 0 with lastOkMs := 1000, nowMs := 999 }.started = true ∧
    { inState 0 with lastOkMs := 1000, nowMs := 999 }.nowMs < 1000 ∧ 1000 < 2 ^ small.tw ∧
    1000 - 999 + small.t < 2 ^ small.tw := by decide
theorem witness_StaleTicksEachBlankAndFlush : (inState 5).started = true ∧ legalConfig (inState 5).cfg = true ∧
    { inState 5 with pending := [tickEvent 601, tickEvent 5000] }.pending = [601, 5000].map tickEvent ++ [] ∧
    ∀ n ∈ [601, 5000], elapsed small.tw (n % 2 ^ small.tw) (inState 5).lastOkMs > small.t := by decide
theorem witness_TicksNeverMoveTheReceiver : (inState 5).started = true ∧ legalConfig (inState 5).cfg = true ∧
    { inState 5 with pending := [tickEvent 600, tickEvent 601] }.pending = [600, 601].map tickEvent ++ [] := by
  decide
theorem witness_OnlyFrameOrResetStampsTheTime :
    (∃ t, exec (.feed 0x42) { received payloadP with nowMs := 9 } = .next t) ∧
    ∃ t, exec (.reset 0) { inState 3 with nowMs := 9 } = .next t :=
  ⟨exists_of_answers (by decide +kernel), exists_of_answers (by decide +kernel)⟩
theorem witness_DisplayStaysBlackUntilAFrame : allBlack { inState 0 with pending := [tickEvent 601] } ∧
    (∃ t, step { inState 0 with pending := [tickEvent 601] } = .next t) ∧
    got (·.results) (step { inState 0 with pending := [tickEvent 601] }) = some [.idle] :=
  ⟨fun _ _ => rfl, exists_of_answers (by decide), by decide⟩
theorem witness_RaceAdmitsBothOrders : (received payloadP).started = true ∧ legalConfig (received payloadP).cfg = true ∧
    (received payloadP).rxState = 6 ∧ checksum (payload (received payloadP)) = 0x42 ∧
    elapsed small.tw (601 % 2 ^ small.tw) (received payloadP).lastOkMs > small.t := by decide +kernel
theorem witness_EventsBeforeResetAreRefused : (State.powerOn small).started = false ∧
    ∃ t, exec (.reset 0) (State.powerOn small) = .next t := ⟨rfl, exists_of_answers (by decide)⟩
theorem witness_WatchdogCountsFromReset : legalConfig (State.powerOn small).cfg = true ∧
    (10 ≤ 610 ∧ 610 < 2 ^ small.tw ∧ 610 - 10 ≤ small.t) ∧ (10 ≤ 611 ∧ 611 < 2 ^ small.tw ∧ small.t < 611 - 10) ∧
    { State.powerOn small with pending := [.event 0x200 10, .event 0x100 611] }.pending =
      resetEvent 10 :: tickEvent 611 :: [] := by decide

theorem witness_EveryEventDrivesOneResult : (∃ t, step { inState 0 with pending := [.event 0x0AA 1] } = .next t) ∧
    (∃ t, step { inState 0 with pending := [.event 0x255 1] } = .next t) ∧ (0x255 : EvtWord) &&& 0x300 ≠ 0 :=
  ⟨exists_of_answers (by decide), exists_of_answers (by decide), by decide⟩

/-- A state in the middle of a payload meets the invariant, and a step from it answers (NoRunFaults too). -/
theorem witness_EveryStepKeepsTheInvariant : BlockInv { inState 5 with
      bytesReceived := 1, declaredLength := ⟨0, 12⟩, pay := [(0, 7)], pix := lit, pending := [feedEvent 8 3] } ∧
    ∃ t, step { inState 5 with
      bytesReceived := 1, declaredLength := ⟨0, 12⟩, pay := [(0, 7)], pix := lit, pending := [feedEvent 8 3] } =
        .next t := by
  refine ⟨⟨by decide, by decide, by decide, fun _ => ⟨by decide, by decide, ?_⟩, fun h => absurd h (by decide),
    by decide, by decide, by decide⟩, exists_of_answers (by decide)⟩
  intro a ha
  have h0 : a = 0 := Nat.lt_one_iff.mp ha
  subst h0
  decide

theorem witness_AdmittedInputsArePerformed : admitted (inState 0) (.event 0x0AA 0) = true ∧
    admitted (inState 0) (.event 0x3AA 0) = false ∧ admitted (inState 0) (.mapPort 1 1) = true ∧
    admitted (inState 0) (.mapPort 2 1) = false ∧ admitted (inState 0) (.configure small) = true ∧
    admitted (inState 0) (.configure widest) = false := by decide
/-- The small grid right after RESET meets the invariant, whatever is pending. -/
theorem witness_AdmittedInputsArePerformed_invariant (p : List Input) : BlockInv { inState 0 with pending := p } :=
  ⟨rfl, by show (0 : BitVec 3).toNat ≤ 6; decide, Nat.zero_le _,
    fun h => absurd h (by show ¬(0 : BitVec 3) = 5; decide),
    fun h => absurd h (by show ¬(0 : BitVec 3) = 6; decide), ⟨List.Pairwise.nil, by intro c hc; cases hc⟩,
    ⟨List.Pairwise.nil, by intro c hc; cases hc⟩, Nat.two_pow_pos _⟩
theorem witness_DeliveredOutputsNeverChange : ∃ t, runSteps 1 { inState 0 with pending := [tickEvent 601] } = .next t :=
  exists_of_answers (by decide)

/-- Two states in the middle of a payload that differ in `frame_id`, in `declared_length`, in the bytes of PAY not
yet stored and in the number of RESETs agree on all that is visible. -/
theorem witness_UnspecifiedValuesAreNeverObserved : SameVisible
    { inState 5 with frameId := 1, bytesReceived := 1, pay := [(0, 7), (1, 8)] }
    { inState 5 with frameId := 2, bytesReceived := 1, pay := [(0, 7)], epoch := 4, declaredLength := ⟨9, 9⟩ } := by
  refine ⟨rfl, rfl, rfl, rfl, rfl, rfl, rfl, rfl, rfl, rfl, rfl, fun h => absurd h (by decide), fun _ => rfl,
    fun _ a ha => ?_, fun h => absurd h (by decide)⟩
  have h0 : a = 0 := Nat.lt_one_iff.mp ha
  subst h0
  decide

end Sys2Proof.Machine.Tests
end

/-! What a step answers under a configuration the spec does not admit (`00_scope.md` R7). -/

namespace Sys2Proof.Machine

theorem legalConfig_eq_false_of_grid {c : Config} (h : c.w < 1 ∨ c.h < 1 ∨ c.w * c.h * 3 > 65535) :
    legalConfig c = false := by
  rw [Bool.eq_false_iff, ne_eq, legalConfig_iff]
  rintro ⟨hw, hh, hl, -⟩
  have hsize : c.w * c.h * 3 ≤ 65535 := hl
  omega

theorem configure_of_illegal {c : Config} (h : legalConfig c = false) (s : State) :
    configure c s = .refused .illegalConfiguration := if_pos h

theorem underLegalConfig_of_illegal {s : State} (h : legalConfig s.cfg = false) (event : Out) :
    underLegalConfig s event = .refused .illegalConfiguration := if_neg (by simp [h])

/-- A step on a configuration input. -/
theorem step_configure {s : State} {c : Config} {rest : List Input} (hp : s.pending = .configure c :: rest) :
    step s = configure c (afterFetch s rest s.nowMs) := by
  simp only [step, fetch, hp]
  rfl

/-- Every other input is an instruction, performed behind the check of the configuration. -/
theorem step_of_not_configure {s : State} {inp : Input} {rest : List Input} (hp : s.pending = inp :: rest)
    (hn : ∀ c, inp ≠ .configure c) :
    ∃ i now, step s = underLegalConfig (afterFetch s rest now) (exec i (afterFetch s rest now)) := by
  cases inp with
  | configure c => exact absurd rfl (hn c)
  | event w now => exact ⟨decode (.evt w), now, by simp only [step, fetch, hp]; rfl⟩
  | crcPort a b => exact ⟨decode (.crcPort a b), s.nowMs, by simp only [step, fetch, hp]; rfl⟩
  | mapPort x y => exact ⟨decode (.mapPort x y), s.nowMs, by simp only [step, fetch, hp]; rfl⟩

/-- Settles O9: an instruction stops at the check of the held configuration, which taking the input leaves as it
was, and a configuration input at the check of the one it asks for. -/
theorem illegalGridIsRefused : Obligations.IllegalGridIsRefused := by
  refine ⟨fun s inp rest hp hn hgrid => ?_, fun s c rest hp hgrid => ?_⟩
  · obtain ⟨i, now, hstep⟩ := step_of_not_configure hp hn
    have hcfg : legalConfig (afterFetch s rest now).cfg = false := legalConfig_eq_false_of_grid hgrid
    rw [hstep, underLegalConfig_of_illegal hcfg]
  · rw [step_configure hp, configure_of_illegal (legalConfig_eq_false_of_grid hgrid)]

end Sys2Proof.Machine

/-! The events a step performs: which instruction a word spells, and what a step on it does (`30_encoding.md` R64,
`10_state.md` R34). -/

namespace Sys2Proof.Machine

/-- The four kinds of an event word, and which of them is FEED. -/
theorem decodeEvt_cases (w : EvtWord) :
    (w &&& 0x300 = 0 ∧ ∃ b, decode (.evt w) = .feed b) ∨ (∃ d, decode (.evt w) = .tick d) ∨
      (∃ d, decode (.evt w) = .reset d) ∨ ∃ d, decode (.evt w) = .evtReserved d := by
  simp only [decode, decodeEvt]
  split
  · next hfeed => exact .inl ⟨hfeed, _, rfl⟩
  · split
    · exact .inr (.inl ⟨_, rfl⟩)
    · split
      · exact .inr (.inr (.inl ⟨_, rfl⟩))
      · exact .inr (.inr (.inr ⟨_, rfl⟩))

variable {s t : State} {rest : List Input}

/-- A step on an event, behind the check of the configuration. -/
theorem step_event {w : EvtWord} {now : Nat} (hp : s.pending = .event w now :: rest) :
    step s = underLegalConfig (afterFetch s rest now) (exec (decode (.evt w)) (afterFetch s rest now)) := by
  simp only [step, fetch, hp]
  rfl

/-- A step on the operands of the CRC port. -/
theorem step_crcPort {c d : Byte} (hp : s.pending = .crcPort c d :: rest) :
    step s = underLegalConfig (afterFetch s rest s.nowMs) (execCrcStep c d (afterFetch s rest s.nowMs)) := by
  simp only [step, fetch, hp]
  rfl

/-- A step on the operands of the mapper port. -/
theorem step_mapPort {x y : Nat} (hp : s.pending = .mapPort x y :: rest) :
    step s = underLegalConfig (afterFetch s rest s.nowMs) (execSerpMap x y (afterFetch s rest s.nowMs)) := by
  simp only [step, fetch, hp]
  rfl

theorem underLegalConfig_of_legal (h : legalConfig s.cfg = true) (event : Out) :
    underLegalConfig s event = event := if_pos h

/-- An input performed under the check of the configuration was performed under a legal one. -/
theorem underLegalConfig_next {event : Out} (h : underLegalConfig s event = .next t) :
    legalConfig s.cfg = true ∧ event = .next t := by
  unfold underLegalConfig at h
  split at h
  · next hlegal => exact ⟨hlegal, h⟩
  · cases h

/-- Settles O6: the check of the configuration passes, and taking the input leaves the instruction it decodes to. -/
theorem stepRunsTheDecodedInstruction : Obligations.StepRunsTheDecodedInstruction := by
  intro s rest hlegal
  refine ⟨fun w now hp => ?_, fun c d hp => ?_, fun x y hp => ?_⟩
  · exact (step_event hp).trans (underLegalConfig_of_legal (s := afterFetch s rest now) hlegal _)
  · exact (step_crcPort hp).trans (underLegalConfig_of_legal (s := afterFetch s rest s.nowMs) hlegal _)
  · exact (step_mapPort hp).trans (underLegalConfig_of_legal (s := afterFetch s rest s.nowMs) hlegal _)

/-! ### Results (`10_state.md` R31) -/

theorem execTick_results {d : Byte} (h : execTick d s = .next t) : t.results = .idle :: s.results := by
  obtain ⟨-, ⟨-, rfl⟩ | ⟨-, m, -, rfl⟩⟩ := execTick_cases h <;> rfl

theorem execReset_results {d : Byte} (h : execReset d s = .next t) : t.results = .idle :: s.results := by
  obtain ⟨m, -, hm⟩ := execReset_cases d s
  cases hm.symm.trans h
  rfl

theorem performRow_results {r : RxRow} (h : performRow r s = .next t) : ∃ e, t.results = e :: s.results := by
  rcases performRow_cases h with ⟨-, e, he, -⟩ | ⟨b, m, -, -, -, rfl⟩
  · exact ⟨e, he⟩
  · exact ⟨_, rfl⟩

/-- Settles O48, by the four kinds of an event word: the row a FEED selects emits one result, TICK and RESET emit
Idle, and the reserved kind never answers. -/
theorem everyEventDrivesOneResult : Obligations.EveryEventDrivesOneResult := by
  intro s t w now rest hp hstep
  obtain ⟨-, hexec⟩ := underLegalConfig_next ((step_event hp).symm.trans hstep)
  rcases decodeEvt_cases w with ⟨hkind, b, hw⟩ | ⟨d, hw⟩ | ⟨d, hw⟩ | ⟨d, hw⟩ <;> rw [hw] at hexec
  · obtain ⟨-, hrow⟩ := execFeed_cases hexec
    obtain ⟨e, he⟩ := performRow_results hrow
    exact ⟨e, he, fun hne => absurd hkind hne⟩
  · exact ⟨.idle, execTick_results (s := afterFetch s rest now) (d := d) hexec, fun _ => rfl⟩
  · exact ⟨.idle, execReset_results (s := afterFetch s rest now) (d := d) hexec, fun _ => rfl⟩
  · cases hexec

/-- Settles O47, by the three forms of a result. -/
theorem resultOutputsAreCoded : Obligations.ResultOutputsAreCoded := by
  refine ⟨rfl, fun _ => ⟨rfl, rfl⟩, rfl, rfl, rfl, rfl, fun r => ?_⟩
  cases r <;> simp [evResult]

/-! ### The state after reset -/

/-- Settles O46: every slot reads black because nothing is listed in PIX. -/
theorem resetStateHoldsTheSpecValues : Obligations.ResetStateHoldsTheSpecValues :=
  ⟨rfl, rfl, fun _ => rfl, rfl⟩

end Sys2Proof.Machine

/-! The invariant of `10_state.md` R35: one rule for each operation that acts on a state, then one lemma for each
event. -/

namespace Sys2Proof.Machine

variable {s t : State}

theorem payFilled_zero (s : State) : payFilled s 0 := fun _ ha => absurd ha (Nat.not_lt_zero _)

/-- A store in PAY fills its own address and empties none. -/
theorem lookup_storePay_isSome {m : List Host.Cell} {i a : Nat} (v : Byte)
    (h : a = i ∨ (lookup m a).isSome = true) : (lookup (storeByte .pay m i v) a).isSome = true := by
  rw [lookup_storeByte]
  by_cases hai : a = i
  · simp [hai, isUnlistedByte]
  · simpa [hai] using h

/-- The byte stored just above a filled range makes the range one longer. -/
theorem payFilled_store_succ {n : Nat} (v : Byte) (h : payFilled s n) :
    payFilled (setPay (storeByte .pay s.pay n v) s) (n + 1) := by
  intro a ha
  refine lookup_storePay_isSome v ?_
  rcases Nat.lt_succ_iff_lt_or_eq.mp ha with hlt | heq
  · exact .inr (h a hlt)
  · exact .inl heq

/-- The invariant outside Payload and Crc, where it bounds the counter and says nothing of PAY's contents. -/
theorem BlockInv.of_header (hlegal : legalConfig t.cfg = true) (hrx : t.rxState.toNat ≤ 4)
    (hcount : t.bytesReceived.toNat ≤ payloadLen t.cfg) (hpay : Memory.wf .pay (payloadLen t.cfg) t.pay)
    (hpix : Memory.wf .pix (payloadLen t.cfg) t.pix) (htime : t.lastOkMs < 2 ^ t.cfg.tw) : BlockInv t where
  configuration := hlegal
  rxStateCode := by omega
  count := hcount
  inPayload h5 := by simp [h5] at hrx
  inCrc h6 := by simp [h6] at hrx
  payWf := hpay
  pixWf := hpix
  timestamp := htime

/-! ### Operations -/

theorem BlockInv.afterFetch (h : BlockInv s) (rest : List Input) (now : Nat) : BlockInv (afterFetch s rest now) :=
  { h with }

theorem BlockInv.emit (h : BlockInv s) (r : Result) : BlockInv (emit r s) := { h with }

theorem BlockInv.flush (h : BlockInv s) : BlockInv (flush s) := { h with }

theorem BlockInv.driveCrcOut (h : BlockInv s) (v : Byte) : BlockInv (driveCrcOut v s) := { h with }

theorem BlockInv.driveMapSlot (h : BlockInv s) (n : Nat) : BlockInv (driveMapSlot n s) := { h with }

theorem BlockInv.setFrameId (h : BlockInv s) (v : Byte) : BlockInv (setFrameId v s) := { h with }

theorem BlockInv.stampLastOk (h : BlockInv s) : BlockInv (stampLastOk s) :=
  { h with timestamp := sampledNow_lt s }

theorem BlockInv.setPix (h : BlockInv s) {m : List Host.Cell} (hm : Memory.wf .pix (payloadLen s.cfg) m) :
    BlockInv (setPix m s) :=
  { h with pixWf := hm }

/-- The receiver may go to any state before Payload. -/
theorem BlockInv.setRxState (h : BlockInv s) {x : BitVec 3} (hx : x.toNat ≤ 4) : BlockInv (setRxState x s) :=
  .of_header h.configuration hx h.count h.payWf h.pixWf h.timestamp

/-- The length may be written before Payload. -/
theorem BlockInv.setDeclaredLength (h : BlockInv s) (hrx : s.rxState.toNat ≤ 4) (d : LenReg) :
    BlockInv (setDeclaredLength d s) :=
  .of_header h.configuration hrx h.count h.payWf h.pixWf h.timestamp

/-- The counter may be cleared before Payload. -/
theorem BlockInv.clearCount (h : BlockInv s) (hrx : s.rxState.toNat ≤ 4) : BlockInv (setBytesReceived 0 s) :=
  .of_header h.configuration hrx (Nat.zero_le _) h.payWf h.pixWf h.timestamp

/-- Payload is entered with a cleared counter and the length `L` (`41_receiver.md` R97). -/
theorem BlockInv.enterPayload (h : BlockInv s) (hcount : s.bytesReceived = 0)
    (hlen : s.declaredLength.value.toNat = payloadLen s.cfg) : BlockInv (Machine.setRxState 5 s) :=
  { h with
    rxStateCode := by simp
    inPayload := fun _ => by
      have hpos : 0 < payloadLen s.cfg := by
        obtain ⟨hw, hh, -⟩ := legalConfig_iff.mp h.configuration
        exact Nat.mul_pos (Nat.mul_pos hw hh) (by decide)
      simpa [hcount, hlen, hpos] using payFilled_zero (Machine.setRxState 5 s)
    inCrc := fun h6 => by simp at h6 }

theorem count_succ_toNat {n : BitVec 16} {l : Nat} (hn : n.toNat < l) (hl : l ≤ 65535) :
    (n + 1).toNat = n.toNat + 1 := by
  bv_omega

/-- A payload byte that is not the last keeps the receiver in Payload (`41_receiver.md` R98). -/
theorem BlockInv.storeByte_inPayload (h : BlockInv s) (hrx : s.rxState = 5) (b : Byte)
    (hnotLast : (s.bytesReceived + 1).toNat ≠ payloadLen s.cfg) :
    BlockInv (setBytesReceived (s.bytesReceived + 1)
      (setPay (storeByte .pay s.pay s.bytesReceived.toNat b) s)) := by
  obtain ⟨hlt, hlen, hfilled⟩ := h.inPayload hrx
  have hsucc := count_succ_toNat hlt (payloadLen_le h.configuration)
  exact { h with
    count := by rw [setBytesReceived_bytesReceived, hsucc]; exact hlt
    inPayload := fun _ => by
      rw [setBytesReceived_bytesReceived, hsucc]
      exact ⟨lt_of_le_of_ne hlt (hsucc ▸ hnotLast), hlen, payFilled_store_succ b hfilled⟩
    inCrc := fun h6 => by simp [hrx] at h6
    payWf := Memory.wf_storeByte b h.payWf hlt }

/-- The last payload byte fills PAY and moves the receiver to Crc (`41_receiver.md` R98). -/
theorem BlockInv.storeByte_enterCrc (h : BlockInv s) (hrx : s.rxState = 5) (b : Byte)
    (hlast : (s.bytesReceived + 1).toNat = payloadLen s.cfg) :
    BlockInv (Machine.setRxState 6 (setBytesReceived (s.bytesReceived + 1)
      (setPay (storeByte .pay s.pay s.bytesReceived.toNat b) s))) := by
  obtain ⟨hlt, hlen, hfilled⟩ := h.inPayload hrx
  have hsucc := count_succ_toNat hlt (payloadLen_le h.configuration)
  exact { h with
    rxStateCode := by simp
    count := hlast.le
    inPayload := fun h5 => by simp at h5
    inCrc := fun _ => ⟨hlast, hlen, by
      have hfilled' := payFilled_store_succ b hfilled
      rwa [← hsucc, hlast] at hfilled'⟩
    payWf := Memory.wf_storeByte b h.payWf hlt }

/-- RESET forgets what no state before Payload relies on (`70_reset_and_hazards.md` R180). -/
theorem BlockInv.forgetUnspecified (h : BlockInv s) (hrx : s.rxState.toNat ≤ 4) : BlockInv (forgetUnspecified s) :=
  .of_header h.configuration hrx h.count (Memory.wf_nil _ _) h.pixWf h.timestamp

theorem BlockInv.markStarted (h : BlockInv s) : BlockInv (markStarted s) := { h with }

/-- The writes of an apply keep the canonical form of PIX. -/
theorem wf_applyCells {p : List Byte} {m : List Host.Cell} (hp : p.length = payloadLen s.cfg)
    (h : applyCells p (gridCells s.cfg) s = .ok (Machine.setPix m s))
    (hw : Memory.wf .pix (payloadLen s.cfg) s.pix) : Memory.wf .pix (payloadLen s.cfg) m := by
  obtain ⟨m', happly, -, -, hwf⟩ := applyCells_spec p (gridCells s.cfg) s hp fun _ hq => mem_gridCells.mp hq
  have hstate : Machine.setPix m s = Machine.setPix m' s := Except.ok.inj (h.symm.trans happly)
  have hm : m = m' := congrArg State.pix hstate
  exact hm ▸ hwf hw

/-! ### Events -/

/-- FEED keeps the invariant, by the receiver state that selects the row. -/
theorem BlockInv.execFeed (h : BlockInv s) {b : Byte} (hexec : execFeed b s = .next t) : BlockInv t := by
  have hs := (execFeed_cases hexec).1
  rcases rxState_cases s.rxState with hrx | hrx | hrx | hrx | hrx | hrx | hrx | hrx
  · rw [execFeed_sync1 b hs hrx] at hexec
    split at hexec <;> cases hexec
    · exact (h.setRxState (by decide)).emit _
    · exact h.emit _
  · rw [execFeed_sync2 b hs hrx] at hexec
    split at hexec <;> cases hexec
    · exact (h.setRxState (by decide)).emit _
    · exact (h.setRxState (by decide)).emit _
  · rw [execFeed_frameId b hs hrx] at hexec
    cases hexec
    exact ((h.setFrameId _).setRxState (by decide)).emit _
  · rw [execFeed_lenLow b hs hrx] at hexec
    cases hexec
    exact ((h.setDeclaredLength (by simp [hrx]) _).setRxState (by decide)).emit _
  · rw [execFeed_lenHigh b hs hrx] at hexec
    have hheader : BlockInv (setBytesReceived 0 (Machine.setDeclaredLength (s.declaredLength.setHigh b) s)) :=
      (h.setDeclaredLength (by simp [hrx]) _).clearCount (by simp [hrx])
    rcases execRxLenHigh_cases hexec with ⟨hlen, rfl⟩ | ⟨-, rfl⟩
    · exact (hheader.enterPayload rfl hlen).emit _
    · exact (hheader.emit _).setRxState (by decide)
  · rw [execFeed_payload b hs hrx] at hexec
    obtain ⟨-, ⟨hlast, rfl⟩ | ⟨hnotLast, rfl⟩⟩ := execRxPayload_cases hexec
    · exact (h.storeByte_enterCrc hrx b hlast).emit _
    · exact (h.storeByte_inPayload hrx b hnotLast).emit _
  · rw [execFeed_crc b hs hrx] at hexec
    rcases execRxCrc_cases hexec with ⟨-, m, hm, rfl⟩ | ⟨-, rfl⟩
    · have hpix := wf_applyCells (s := Machine.emit (.frameReady (payload s)) s) (length_payload s) hm h.pixWf
      exact ((h.emit _).setPix hpix).flush.stampLastOk.setRxState (by decide)
    · exact (h.emit _).setRxState (by decide)
  · rw [execFeed_illegal b hs hrx] at hexec
    cases hexec

theorem BlockInv.execTick (h : BlockInv s) {d : Byte} (hexec : execTick d s = .next t) : BlockInv t := by
  obtain ⟨-, ⟨-, rfl⟩ | ⟨-, m, hm, rfl⟩⟩ := execTick_cases hexec
  · exact h.emit _
  · exact (h.setPix (wf_blackenAll hm h.pixWf)).flush.emit _

theorem BlockInv.execReset (h : BlockInv s) {d : Byte} (hexec : execReset d s = .next t) : BlockInv t := by
  obtain ⟨m, hm, hnext⟩ := execReset_cases d s
  cases hnext.symm.trans hexec
  have hhunting : BlockInv (setBytesReceived 0 (Machine.setRxState 0 s)) :=
    (h.setRxState (by decide)).clearCount (by simp)
  have hblack := hhunting.setPix (wf_blackenAll hm h.pixWf)
  exact ((hblack.stampLastOk.forgetUnspecified (by simp)).markStarted).emit _

/-- A configuration that is taken is legal, and the block under it is empty (`70_reset_and_hazards.md` R183). -/
theorem BlockInv.configure (h : BlockInv s) {c : Config} (hconf : configure c s = .next t) : BlockInv t := by
  obtain ⟨hlegal, ⟨-, rfl⟩ | ⟨-, rfl⟩⟩ := configure_cases hconf
  · exact h
  · exact .of_header hlegal (Nat.zero_le _) (Nat.zero_le _) (Memory.wf_nil _ _) (Memory.wf_nil _ _)
      (Nat.two_pow_pos _)

/-- An event keeps the invariant, by its kind. -/
theorem BlockInv.exec_event (h : BlockInv s) {w : EvtWord} (hexec : exec (decode (.evt w)) s = .next t) :
    BlockInv t := by
  rcases decodeEvt_cases w with ⟨-, b, hw⟩ | ⟨d, hw⟩ | ⟨d, hw⟩ | ⟨d, hw⟩ <;> rw [hw] at hexec
  · exact h.execFeed hexec
  · exact h.execTick (d := d) hexec
  · exact h.execReset (d := d) hexec
  · cases hexec

/-- Settles O50, by the next input: each is performed in a state that differs in its inputs and time alone. -/
theorem everyStepKeepsTheInvariant : Obligations.EveryStepKeepsTheInvariant := by
  intro s t h hstep
  rcases hp : s.pending with _ | ⟨inp, rest⟩
  · simp only [step, fetch, hp] at hstep
    cases hstep
    exact h
  · cases inp with
    | event w now =>
      exact (h.afterFetch rest now).exec_event (underLegalConfig_next ((step_event hp).symm.trans hstep)).2
    | crcPort c d =>
      obtain ⟨-, hport⟩ := underLegalConfig_next ((step_crcPort hp).symm.trans hstep)
      cases hport
      exact (h.afterFetch rest _).driveCrcOut _
    | mapPort x y =>
      obtain ⟨-, hport⟩ := underLegalConfig_next ((step_mapPort hp).symm.trans hstep)
      unfold execSerpMap at hport
      split at hport <;> cases hport
      exact (h.afterFetch rest _).driveMapSlot _
    | configure c => exact (h.afterFetch rest s.nowMs).configure ((step_configure hp).symm.trans hstep)

/-- Settles O49: the receiver hunts, the counter and the time are 0 and nothing is listed. -/
theorem invariantHoldsAtReset : Obligations.InvariantHoldsAtReset :=
  .of_header (by decide) (Nat.zero_le _) (Nat.zero_le _) (Memory.wf_nil _ _) (Memory.wf_nil _ _)
    (Nat.two_pow_pos _)

end Sys2Proof.Machine

/-! Noninterference (`10_state.md` R22 to R25): one rule for each operation performed on two states that agree on
everything visible, then one lemma for each event. -/

namespace Sys2Proof.Machine

variable {s t : State}

/-! ### Outcomes -/

theorem Out.related_underLegalConfig {R : State → State → Prop} {o p : Out} (hc : s.cfg = t.cfg)
    (h : Out.related R o p) : Out.related R (underLegalConfig s o) (underLegalConfig t p) := by
  unfold underLegalConfig
  rw [hc]
  split
  · exact h
  · exact rfl

theorem Out.related_afterReset {R : State → State → Prop} {o p : Out} (hs : s.started = t.started)
    (h : s.started = true → Out.related R o p) : Out.related R (afterReset s o) (afterReset t p) := by
  unfold afterReset
  rw [← hs]
  split
  · next hstarted => exact h hstarted
  · exact rfl

/-- A relation that every step keeps is kept by every run. -/
theorem Out.related_runSteps {R : State → State → Prop}
    (hstep : ∀ s t, R s t → Out.related R (step s) (step t)) (n : Nat) {s t : State} (h : R s t) :
    Out.related R (runSteps n s) (runSteps n t) := by
  induction n generalizing s t with
  | zero => exact h
  | succ n ih =>
    have hnext := hstep s t h
    rw [runSteps_succ, runSteps_succ]
    cases hs : step s <;> cases ht : step t <;> rw [hs, ht] at hnext
    case next.next => exact ih hnext
    case fault.fault => exact hnext
    case refused.refused => exact hnext
    all_goals exact hnext.elim

/-! ### Operations -/

theorem SameVisible.afterFetch (h : SameVisible s t) (rest : List Input) (now : Nat) :
    SameVisible (afterFetch s rest now) (afterFetch t rest now) :=
  { h with nowMs := rfl, pending := rfl }

theorem SameVisible.emit (h : SameVisible s t) (r : Result) : SameVisible (emit r s) (emit r t) :=
  { h with results := congrArg (r :: ·) h.results }

theorem SameVisible.flush (h : SameVisible s t) : SameVisible (flush s) (flush t) :=
  { h with flushes := congrArg₂ List.cons (flushOf_congr h.pix h.cfg) h.flushes }

theorem SameVisible.driveCrcOut (h : SameVisible s t) (v : Byte) :
    SameVisible (driveCrcOut v s) (driveCrcOut v t) :=
  { h with crcOut := rfl }

theorem SameVisible.driveMapSlot (h : SameVisible s t) (n : Nat) :
    SameVisible (driveMapSlot n s) (driveMapSlot n t) :=
  { h with mapSlot := rfl }

theorem SameVisible.setFrameId (h : SameVisible s t) (v : Byte) : SameVisible (setFrameId v s) (setFrameId v t) :=
  { h with }

theorem SameVisible.setPix (h : SameVisible s t) (m : List Host.Cell) : SameVisible (setPix m s) (setPix m t) :=
  { h with pix := rfl }

theorem SameVisible.sampledNow (h : SameVisible s t) : sampledNow s = sampledNow t := by
  unfold Machine.sampledNow
  rw [h.nowMs, h.cfg]

theorem SameVisible.stampLastOk (h : SameVisible s t) : SameVisible (stampLastOk s) (stampLastOk t) :=
  { h with lastOkMs := h.sampledNow }

theorem SameVisible.markStarted (h : SameVisible s t) : SameVisible (markStarted s) (markStarted t) :=
  { h with started := rfl }

/-- A receiver state may be entered when the two states agree on what is visible there. -/
theorem SameVisible.enter (h : SameVisible s t) {x : BitVec 3}
    (hlow : x = 4 → s.declaredLength.lo = t.declaredLength.lo)
    (hcount : x = 5 → s.bytesReceived = t.bytesReceived ∧
      ∀ a, a < s.bytesReceived.toNat → readByte s .pay a = readByte t .pay a)
    (hpay : x = 6 → ∀ a, a < payloadLen s.cfg → readByte s .pay a = readByte t .pay a) :
    SameVisible (setRxState x s) (setRxState x t) :=
  { h with
    rxState := rfl
    lenLow := hlow
    count := fun h5 => (hcount h5).1
    prefixStored := fun h5 => (hcount h5).2
    payloadStored := hpay }

/-- Up to LenLow nothing of the frame in flight is visible. -/
theorem SameVisible.setRxState (h : SameVisible s t) {x : BitVec 3} (hx : x.toNat ≤ 3) :
    SameVisible (setRxState x s) (setRxState x t) :=
  h.enter (fun h4 => by simp [h4] at hx) (fun h5 => by simp [h5] at hx) (fun h6 => by simp [h6] at hx)

/-- Of the length its low byte is visible. -/
theorem SameVisible.setDeclaredLength (h : SameVisible s t) {d e : LenReg} (hlow : d.lo = e.lo) :
    SameVisible (setDeclaredLength d s) (setDeclaredLength e t) :=
  { h with lenLow := fun _ => hlow }

/-- The counter is visible in Payload, with the bytes it has counted. -/
theorem SameVisible.setBytesReceived (h : SameVisible s t) (n : BitVec 16)
    (hpay : s.rxState = 5 → ∀ a, a < n.toNat → readByte s .pay a = readByte t .pay a) :
    SameVisible (setBytesReceived n s) (setBytesReceived n t) :=
  { h with
    count := fun _ => rfl
    prefixStored := hpay }

/-- A byte stored in both keeps agreement where there was agreement. -/
theorem readByte_storePay_congr {i a : Nat} (v : Byte)
    (h : a ≠ i → readByte s .pay a = readByte t .pay a) :
    readByte (setPay (storeByte .pay s.pay i v) s) .pay a = readByte (setPay (storeByte .pay t.pay i v) t) .pay a := by
  rw [readByte_storePay, readByte_storePay]
  split
  · rfl
  · next hne => exact h hne

theorem SameVisible.storePay (h : SameVisible s t) (i : Nat) (v : Byte) :
    SameVisible (setPay (storeByte .pay s.pay i v) s) (setPay (storeByte .pay t.pay i v) t) :=
  { h with
    prefixStored := fun h5 a ha => readByte_storePay_congr v fun _ => h.prefixStored h5 a ha
    payloadStored := fun h6 a ha => readByte_storePay_congr v fun _ => h.payloadStored h6 a ha }

/-- Once the receiver hunts for SYNC1, what RESET leaves unspecified is not visible. -/
theorem SameVisible.forgetUnspecified (h : SameVisible s t) (hrx : s.rxState = 0) :
    SameVisible (forgetUnspecified s) (forgetUnspecified t) :=
  { h with
    lenLow := fun h4 => by simp [hrx] at h4
    prefixStored := fun h5 => by simp [hrx] at h5
    payloadStored := fun h6 => by simp [hrx] at h6 }

/-! ### Receiver rows -/

/-- The LenHigh byte completes the length from the low byte, so both states compare the same length. -/
theorem SameVisible.execRxLenHigh (h : SameVisible s t) (hrx : s.rxState = 4) (b : Byte) :
    Out.related SameVisible (execRxLenHigh b s) (execRxLenHigh b t) := by
  have hlow := h.lenLow hrx
  have hlen : s.declaredLength.setHigh b = t.declaredLength.setHigh b := by simp [LenReg.setHigh, hlow]
  have hheader : SameVisible (Machine.setBytesReceived 0 (Machine.setDeclaredLength (s.declaredLength.setHigh b) s))
      (Machine.setBytesReceived 0 (Machine.setDeclaredLength (t.declaredLength.setHigh b) t)) :=
    (h.setDeclaredLength (d := s.declaredLength.setHigh b) (e := t.declaredLength.setHigh b) hlow).setBytesReceived 0
      fun h5 => by simp [hrx] at h5
  by_cases hmatch : (s.declaredLength.setHigh b).value.toNat = payloadLen s.cfg
  · rw [(execRxLenHigh_eq b s).1 hmatch, (execRxLenHigh_eq b t).1 (hlen ▸ h.cfg ▸ hmatch)]
    refine (hheader.enter (fun h4 => by simp at h4) (fun _ => ⟨rfl, fun a ha => ?_⟩) fun h6 => by simp at h6).emit _
    exact absurd ha (Nat.not_lt_zero a)
  · rw [(execRxLenHigh_eq b s).2 hmatch, (execRxLenHigh_eq b t).2 (hlen ▸ h.cfg ▸ hmatch)]
    exact (hheader.emit _).setRxState (by decide)

/-- A payload byte extends the visible bytes of PAY by one, and the last one completes them. -/
theorem SameVisible.execRxPayload (h : SameVisible s t) (hrx : s.rxState = 5) (b : Byte) :
    Out.related SameVisible (execRxPayload b s) (execRxPayload b t) := by
  have hstored : ∀ a, a < (s.bytesReceived + 1).toNat →
      readByte (setPay (storeByte .pay s.pay s.bytesReceived.toNat b) s) .pay a =
        readByte (setPay (storeByte .pay t.pay s.bytesReceived.toNat b) t) .pay a := by
    intro a ha
    exact readByte_storePay_congr b fun hne => h.prefixStored hrx a (by bv_omega)
  have hcounted := (h.storePay s.bytesReceived.toNat b).setBytesReceived (s.bytesReceived + 1) fun _ => hstored
  unfold Machine.execRxPayload writePay
  rw [← h.count hrx, ← h.cfg]
  by_cases hin : s.bytesReceived.toNat < payloadLen s.cfg
  · by_cases hlast : (s.bytesReceived + 1).toNat = payloadLen s.cfg
    · simp only [hin, hlast, if_true]
      exact (hcounted.enter (fun h4 => by simp at h4) (fun h5 => by simp at h5)
        fun _ a ha => hstored a (hlast ▸ ha)).emit _
    · simp only [hin, hlast, if_true, if_false]
      exact hcounted.emit _
  · simp only [hin, if_false]
    exact rfl

/-- The CRC byte reads PAY below `L` alone, all of which the two states agree on. -/
theorem SameVisible.execRxCrc (h : SameVisible s t) (hrx : s.rxState = 6) (b : Byte) :
    Out.related SameVisible (execRxCrc b s) (execRxCrc b t) := by
  have hpayload : payload s = payload t := payload_eq_of_bytes h.cfg (h.payloadStored hrx)
  by_cases hmatch : checksum (payload s) = b
  · obtain ⟨m, happly, hs⟩ := (execRxCrc_eq b s).1 hmatch
    obtain ⟨m', happly', ht⟩ := (execRxCrc_eq b t).1 (hpayload ▸ hmatch)
    have happly_t := applyCells_congr (payload s) (gridCells s.cfg) h.cfg h.pix happly
    rw [hpayload, h.cfg] at happly_t
    have hm : m = m' := congrArg State.pix (Except.ok.inj (happly_t.symm.trans happly'))
    rw [hs, ht, ← hm, ← hpayload]
    exact ((h.emit _).setPix m).flush.stampLastOk.setRxState (by decide)
  · rw [(execRxCrc_eq b s).2 hmatch, (execRxCrc_eq b t).2 (hpayload ▸ hmatch)]
    exact (h.emit _).setRxState (by decide)

/-! ### Events -/

/-- FEED, by the receiver state, which the two states share. -/
theorem SameVisible.execFeed (h : SameVisible s t) (b : Byte) :
    Out.related SameVisible (execFeed b s) (execFeed b t) := by
  refine Out.related_afterReset h.started fun hs => ?_
  have ht : t.started = true := h.started ▸ hs
  rw [← execFeed_started b hs, ← execFeed_started b ht]
  rcases rxState_cases s.rxState with hrx | hrx | hrx | hrx | hrx | hrx | hrx | hrx <;>
    have hrx' := h.rxState.symm.trans hrx
  · rw [execFeed_sync1 b hs hrx, execFeed_sync1 b ht hrx']
    split
    · exact (h.setRxState (by decide)).emit _
    · exact h.emit _
  · rw [execFeed_sync2 b hs hrx, execFeed_sync2 b ht hrx']
    split
    · exact (h.setRxState (by decide)).emit _
    · exact (h.setRxState (by decide)).emit _
  · rw [execFeed_frameId b hs hrx, execFeed_frameId b ht hrx']
    exact ((h.setFrameId b).setRxState (by decide)).emit _
  · rw [execFeed_lenLow b hs hrx, execFeed_lenLow b ht hrx']
    have hlow := h.setDeclaredLength (d := s.declaredLength.setLow b) (e := t.declaredLength.setLow b) rfl
    exact (hlow.enter (fun _ => rfl) (fun h5 => by simp at h5) fun h6 => by simp at h6).emit _
  · rw [execFeed_lenHigh b hs hrx, execFeed_lenHigh b ht hrx']
    exact h.execRxLenHigh hrx b
  · rw [execFeed_payload b hs hrx, execFeed_payload b ht hrx']
    exact h.execRxPayload hrx b
  · rw [execFeed_crc b hs hrx, execFeed_crc b ht hrx']
    exact h.execRxCrc hrx b
  · rw [execFeed_illegal b hs hrx, execFeed_illegal b ht hrx']
    exact rfl

theorem SameVisible.stale (h : SameVisible s t) : stale s = stale t := by
  unfold Machine.stale
  rw [h.sampledNow, h.cfg, h.lastOkMs]

/-- Blackening makes one pixel memory of two that are the same. -/
theorem SameVisible.blackenAll (h : SameVisible s t) :
    ∃ m, blackenAll s = .ok (Machine.setPix m s) ∧ blackenAll t = .ok (Machine.setPix m t) := by
  obtain ⟨m, hm, -⟩ := blackenAll_spec s
  exact ⟨m, hm, blackenAll_congr h.cfg h.pix hm⟩

theorem SameVisible.execTick (h : SameVisible s t) (d : Byte) :
    Out.related SameVisible (execTick d s) (execTick d t) := by
  refine Out.related_afterReset h.started fun _ => ?_
  rw [← h.stale]
  split
  · obtain ⟨m, hs, ht⟩ := h.blackenAll
    simp only [blackout, hs, ht]
    exact (h.setPix m).flush.emit _
  · exact h.emit _

theorem SameVisible.execReset (h : SameVisible s t) (d : Byte) :
    Out.related SameVisible (execReset d s) (execReset d t) := by
  have hhunting : SameVisible (Machine.setBytesReceived 0 (Machine.setRxState 0 s))
      (Machine.setBytesReceived 0 (Machine.setRxState 0 t)) :=
    (h.setRxState (by decide)).setBytesReceived 0 fun h5 => by simp at h5
  obtain ⟨m, hs, ht⟩ := hhunting.blackenAll
  simp only [Machine.execReset, hs, ht]
  exact ((hhunting.setPix m).stampLastOk.forgetUnspecified rfl).markStarted.emit _

theorem SameVisible.execSerpMap (h : SameVisible s t) (x y : Nat) :
    Out.related SameVisible (execSerpMap x y s) (execSerpMap x y t) := by
  unfold Machine.execSerpMap
  rw [← h.cfg]
  split
  · exact h.driveMapSlot _
  · exact rfl

/-- A configuration that is taken leaves the same visible block on both sides, hunting for SYNC1. -/
theorem SameVisible.configure (h : SameVisible s t) (c : Config) :
    Out.related SameVisible (configure c s) (configure c t) := by
  unfold Machine.configure
  rw [← h.cfg, ← h.started]
  split
  · exact rfl
  · split
    · exact h
    · split
      · exact rfl
      · exact
          { h with
            cfg := rfl
            rxState := rfl
            pix := rfl
            lastOkMs := rfl
            started := rfl
            lenLow := fun _ => rfl
            count := fun _ => rfl
            prefixStored := fun _ a ha => absurd ha (Nat.not_lt_zero a)
            payloadStored := fun h6 => absurd h6 (by decide : ¬(0 : BitVec 3) = 6) }

/-- An event, by its kind. -/
theorem SameVisible.exec_event (h : SameVisible s t) (w : EvtWord) :
    Out.related SameVisible (exec (decode (.evt w)) s) (exec (decode (.evt w)) t) := by
  rcases decodeEvt_cases w with ⟨-, b, hw⟩ | ⟨d, hw⟩ | ⟨d, hw⟩ | ⟨d, hw⟩ <;> rw [hw]
  · exact h.execFeed b
  · exact h.execTick d
  · exact h.execReset d
  · exact rfl

/-- A step, by the next input, which the two states share. -/
theorem SameVisible.step (h : SameVisible s t) : Out.related SameVisible (step s) (step t) := by
  rcases hs : s.pending with _ | ⟨inp, rest⟩ <;> have ht := h.pending.symm.trans hs
  · simp only [Machine.step, fetch, hs, ht]
    exact h
  · cases inp with
    | event w now =>
      rw [step_event hs, step_event ht]
      exact Out.related_underLegalConfig h.cfg ((h.afterFetch rest now).exec_event w)
    | crcPort c d =>
      rw [step_crcPort hs, step_crcPort ht, ← h.nowMs]
      exact Out.related_underLegalConfig h.cfg ((h.afterFetch rest s.nowMs).driveCrcOut _)
    | mapPort x y =>
      rw [step_mapPort hs, step_mapPort ht, ← h.nowMs]
      exact Out.related_underLegalConfig h.cfg ((h.afterFetch rest s.nowMs).execSerpMap x y)
    | configure c =>
      rw [step_configure hs, step_configure ht, ← h.nowMs]
      exact (h.afterFetch rest s.nowMs).configure c

/-- Settles O54: agreement on what is visible is kept by every step, so by every run. -/
theorem unspecifiedValuesAreNeverObserved : Obligations.UnspecifiedValuesAreNeverObserved :=
  fun n _ _ h => Out.related_runSteps (fun _ _ hst => hst.step) n h

end Sys2Proof.Machine

/-! Storage range and delivered outputs (`20_memory.md` R43, R55): an access to PAY beyond the buffer, and the lists
of flushes and results, which only ever grow at their newest end. -/

namespace Sys2Proof.Machine

/-! ### Beyond the buffer -/

theorem writePay_of_beyond {i : Nat} {s : State} (h : payloadLen s.cfg ≤ i) (v : Byte) :
    writePay i v s = .error .outOfRangeBufferIndex := if_neg (Nat.not_lt.mpr h)

/-- Settles O15: the row's one write is out of range, and the fault of a write is the row's. -/
theorem payloadBeyondTheBufferFaults : Obligations.PayloadBeyondTheBufferFaults := by
  intro s b hbeyond
  show execRxPayload b s = .fault .outOfRangeBufferIndex
  rw [execRxPayload, writePay_of_beyond hbeyond]

/-! ### Lists that grow at the front -/

section
variable {α : Type} {k n : Nat} {old mid new : List α}

/-- The new list is the old one with at most `n` elements put before it. -/
def GrowsBy (n : Nat) (old new : List α) : Prop := ∃ l, new = l ++ old ∧ l.length ≤ n

theorem GrowsBy.refl (n : Nat) (old : List α) : GrowsBy n old old := ⟨[], rfl, Nat.zero_le n⟩

theorem GrowsBy.cons (a : α) (old : List α) : GrowsBy 1 old (a :: old) := ⟨[a], rfl, Nat.le_refl 1⟩

theorem GrowsBy.trans (h : GrowsBy k old mid) (h' : GrowsBy n mid new) : GrowsBy (n + k) old new := by
  obtain ⟨l, rfl, hl⟩ := h
  obtain ⟨l', rfl, hl'⟩ := h'
  exact ⟨l' ++ l, (List.append_assoc l' l old).symm, by rw [List.length_append]; exact Nat.add_le_add hl' hl⟩

end

/-! ### The flushes and results of one step -/

section
variable {s t : State}

/-- Flushes and results have each grown by at most `n` entries. -/
structure OutputsGrow (n : Nat) (s t : State) : Prop where
  flushes : GrowsBy n s.flushes t.flushes
  results : GrowsBy n s.results t.results

theorem OutputsGrow.refl (n : Nat) (s : State) : OutputsGrow n s s := ⟨.refl n _, .refl n _⟩

theorem OutputsGrow.trans {k n : Nat} {u : State} (h : OutputsGrow k s t) (h' : OutputsGrow n t u) :
    OutputsGrow (n + k) s u := ⟨h.flushes.trans h'.flushes, h.results.trans h'.results⟩

/-- Taking an input delivers nothing. -/
theorem OutputsGrow.of_afterFetch {n now : Nat} {rest : List Input} (h : OutputsGrow n (afterFetch s rest now) t) :
    OutputsGrow n s t := ⟨h.flushes, h.results⟩

/-- A TICK delivers the flush of its blackout or none. -/
theorem execTick_outputsGrow {d : Byte} (h : execTick d s = .next t) : OutputsGrow 1 s t := by
  obtain ⟨-, ⟨-, rfl⟩ | ⟨-, m, -, rfl⟩⟩ := execTick_cases h
  · exact ⟨.refl 1 _, .cons _ _⟩
  · exact ⟨.cons _ _, .cons _ _⟩

/-- RESET delivers no flush. -/
theorem execReset_outputsGrow {d : Byte} (h : execReset d s = .next t) : OutputsGrow 1 s t := by
  obtain ⟨m, -, hm⟩ := execReset_cases d s
  cases hm.symm.trans h
  exact ⟨.refl 1 _, .cons _ _⟩

/-- A receiver row delivers the flush of the frame it applies or none. -/
theorem performRow_outputsGrow {r : RxRow} (h : performRow r s = .next t) : OutputsGrow 1 s t := by
  rcases performRow_cases h with ⟨hframe, e, hresults, -⟩ | ⟨b, m, -, -, -, rfl⟩
  · have hflushes : t.flushes = s.flushes := by rw [hframe]
    exact ⟨hflushes ▸ .refl 1 _, hresults ▸ .cons e _⟩
  · exact ⟨.cons _ _, .cons _ _⟩

theorem exec_outputsGrow {i : Instr} (h : exec i s = .next t) : OutputsGrow 1 s t := by
  rcases exec_cases h with ⟨d, -, htick⟩ | ⟨d, -, hreset⟩ | ⟨r, hrow, -⟩ | ⟨c, d, -, rfl⟩ | ⟨x, y, -, -, -, rfl⟩
  · exact execTick_outputsGrow htick
  · exact execReset_outputsGrow hreset
  · exact performRow_outputsGrow hrow
  · exact ⟨.refl 1 _, .refl 1 _⟩
  · exact ⟨.refl 1 _, .refl 1 _⟩

/-- A configuration that is taken keeps both lists, also where it makes the rest of the state anew. -/
theorem configure_outputsGrow {c : Config} (h : configure c s = .next t) : OutputsGrow 1 s t := by
  obtain ⟨-, ⟨-, rfl⟩ | ⟨-, rfl⟩⟩ := configure_cases h
  · exact .refl 1 _
  · exact ⟨.refl 1 _, .refl 1 _⟩

theorem step_outputsGrow (h : step s = .next t) : OutputsGrow 1 s t := by
  rcases step_cases h with ⟨-, rfl⟩ | ⟨c, rest, -, hconf⟩ | ⟨inp, rest, now, i, -, -, -, -, -, -, hexec⟩
  · exact .refl 1 _
  · exact (configure_outputsGrow hconf).of_afterFetch
  · exact (exec_outputsGrow hexec).of_afterFetch

/-- A run, by its number of steps: each adds at most one entry to either list. -/
theorem runSteps_outputsGrow {n : Nat} (h : runSteps n s = .next t) : OutputsGrow n s t := by
  induction n generalizing s with
  | zero =>
    cases h
    exact .refl 0 _
  | succ n ih =>
    obtain ⟨s', hstep, hrun⟩ := runSteps_succ_next h
    exact (step_outputsGrow hstep).trans (ih hrun)

end

/-- Settles O53: the growth of both lists along a run. -/
theorem deliveredOutputsNeverChange : Obligations.DeliveredOutputsNeverChange := by
  intro n s t hrun
  obtain ⟨hflushes, hresults⟩ := runSteps_outputsGrow hrun
  exact ⟨hflushes, hresults⟩

end Sys2Proof.Machine

/-! The decoders and the encoder undo each other (`30_encoding.md` R63 to R65, R73): the encoder meets every encoded
form from a well-formed instruction, and decoding gives that instruction back. -/

namespace Sys2Proof.Machine

/-! ### From an instruction to its word and back -/

@[simp] theorem decode_reservedWord (d : Byte) : decode (.evt (evtWord 3 d)) = .evtReserved d := by
  simp [decode, decodeEvt_evtWord]

/-- The instruction of an RXDEC word is the row its state code and its byte select. -/
theorem decode_rxWord {st : BitVec 3} {b : Byte} {r : RxRow} (h : decodeRxdec (rxWord st b) = r) :
    decode (.rxdec (rxWord st b)) = r.instr := congrArg RxRow.instr h

/-- Decoding undoes encoding, row by row. Only the two MISS rows use the hypothesis: their HIT row, which is tried
first, takes the one byte it excludes. -/
theorem decode_encode {i : Instr} (h : i.wellFormed = true) : decode (encode i) = i := by
  cases i with
  | feed b => exact decode_feedWord b
  | tick d => exact decode_tickWord d
  | reset d => exact decode_resetWord d
  | evtReserved d => exact decode_reservedWord d
  | rxSync1Hit => exact decode_rxWord (r := .sync1Hit) (by simp [decodeRxdec_rxWord])
  | rxSync1Miss b =>
    have hb : b ≠ sync1 := bne_iff_ne.mp h
    exact decode_rxWord (r := .sync1Miss b) (by simp [decodeRxdec_rxWord, hb])
  | rxSync2Hit => exact decode_rxWord (r := .sync2Hit) (by simp [decodeRxdec_rxWord])
  | rxSync2Miss b =>
    have hb : b ≠ sync2 := bne_iff_ne.mp h
    exact decode_rxWord (r := .sync2Miss b) (by simp [decodeRxdec_rxWord, hb])
  | rxFrameId b => exact decode_rxWord (r := .frameId b) (by simp [decodeRxdec_rxWord])
  | rxLenLow b => exact decode_rxWord (r := .lenLow b) (by simp [decodeRxdec_rxWord])
  | rxLenHigh b => exact decode_rxWord (r := .lenHigh b) (by simp [decodeRxdec_rxWord])
  | rxPayload b => exact decode_rxWord (r := .payload b) (by simp [decodeRxdec_rxWord])
  | rxCrc b => exact decode_rxWord (r := .crc b) (by simp [decodeRxdec_rxWord])
  | rxIllegalState b => exact decode_rxWord (r := .illegal b) (by simp [decodeRxdec_rxWord])
  | crcStep c d => rfl
  | serpMap x y => rfl

/-- Settles O4. -/
theorem decodeOfEncodeIsTheInstruction : Obligations.DecodeOfEncodeIsTheInstruction :=
  fun _ hwf => decode_encode hwf

/-! ### From a word to its instruction and back -/

theorem eventKind_cases : ∀ k : BitVec 2, k = 0 ∨ k = 1 ∨ k = 2 ∨ k = 3 := by decide

theorem stateCode_cases : ∀ st : BitVec 3,
    st = 0 ∨ st = 1 ∨ st = 2 ∨ st = 3 ∨ st = 4 ∨ st = 5 ∨ st = 6 ∨ st = 7 := by decide

/-- Every EVT word is a kind and its data bits. -/
theorem exists_evtWord (w : EvtWord) : ∃ k d, evtWord k d = w :=
  ⟨w.extractLsb' 8 2, evtData w, by
    rw [evtWord, evtData, BitVec.extractLsb'_append_extractLsb'_eq_extractLsb' (by rfl), BitVec.extractLsb'_eq_self]⟩

/-- Every EVT word is the encoding of an event. -/
theorem exists_encode_evtWord (k : BitVec 2) (d : Byte) :
    ∃ i : Instr, i.wellFormed = true ∧ encode i = .evt (evtWord k d) := by
  rcases eventKind_cases k with rfl | rfl | rfl | rfl
  · exact ⟨.feed d, rfl, rfl⟩
  · exact ⟨.tick d, rfl, rfl⟩
  · exact ⟨.reset d, rfl, rfl⟩
  · exact ⟨.evtReserved d, rfl, rfl⟩

/-- Every RXDEC word is the encoding of a receiver row; in the two hunting states the byte decides between HIT and
MISS. -/
theorem exists_encode_rxWord (st : BitVec 3) (b : Byte) :
    ∃ i : Instr, i.wellFormed = true ∧ encode i = .rxdec (rxWord st b) := by
  rcases stateCode_cases st with rfl | rfl | rfl | rfl | rfl | rfl | rfl | rfl
  · by_cases hb : b = sync1
    · exact ⟨.rxSync1Hit, rfl, hb ▸ rfl⟩
    · exact ⟨.rxSync1Miss b, bne_iff_ne.mpr hb, rfl⟩
  · by_cases hb : b = sync2
    · exact ⟨.rxSync2Hit, rfl, hb ▸ rfl⟩
    · exact ⟨.rxSync2Miss b, bne_iff_ne.mpr hb, rfl⟩
  · exact ⟨.rxFrameId b, rfl, rfl⟩
  · exact ⟨.rxLenLow b, rfl, rfl⟩
  · exact ⟨.rxLenHigh b, rfl, rfl⟩
  · exact ⟨.rxPayload b, rfl, rfl⟩
  · exact ⟨.rxCrc b, rfl, rfl⟩
  · exact ⟨.rxIllegalState b, rfl, rfl⟩

/-- The encoder meets every encoded form. -/
theorem exists_encode (c : Code) : ∃ i : Instr, i.wellFormed = true ∧ encode i = c := by
  cases c with
  | evt w =>
    obtain ⟨k, d, rfl⟩ := exists_evtWord w
    exact exists_encode_evtWord k d
  | rxdec k => exact rxWord_rxCode_rxByte k ▸ exists_encode_rxWord (rxCode k) (rxByte k)
  | crcPort c d => exact ⟨.crcStep c d, rfl, rfl⟩
  | mapPort x y => exact ⟨.serpMap x y, rfl, rfl⟩

/-- Settles O5: the form is the encoding of a well-formed instruction, and that instruction is what it decodes to. -/
theorem encodeOfDecodeIsTheWord : Obligations.EncodeOfDecodeIsTheWord := by
  intro c
  obtain ⟨i, hwf, rfl⟩ := exists_encode c
  rw [decode_encode hwf]
  exact ⟨hwf, rfl⟩

/-! ### The tables -/

/-- Settles O1, by evaluating the decoder on the eighteen fixed words. -/
theorem wordsOfEveryFamilyDecode : Obligations.WordsOfEveryFamilyDecode := by
  unfold Obligations.WordsOfEveryFamilyDecode
  decide

/-- Settles O2: each kind decodes to its event, and the rules of TICK, RESET and the reserved row do not read their
data bits. -/
theorem evtKindAloneSelectsTheEvent : Obligations.EvtKindAloneSelectsTheEvent :=
  fun d _ => ⟨decode_feedWord d, decode_tickWord d, decode_resetWord d, decode_reservedWord d, rfl, rfl, rfl⟩

/-- The table's match column holds state codes, with the byte where the mask covers it. -/
theorem rxTable_eq : rxTable =
    [(rxWord 0 sync1, 0x7FF), (rxWord 0 0, 0x700), (rxWord 1 sync2, 0x7FF), (rxWord 1 0, 0x700), (rxWord 2 0, 0x700),
     (rxWord 3 0, 0x700), (rxWord 4 0, 0x700), (rxWord 5 0, 0x700), (rxWord 6 0, 0x700), (rxWord 7 0, 0x700)] := by
  decide

/-- By the receiver state, and in the two hunting states by whether the byte is the one the HIT row takes. -/
theorem findIdx?_rxTable_rxWord (st : BitVec 3) (b : Byte) :
    rxTable.findIdx? (fun row => rxWord st b &&& row.2 == row.1) =
      some (rowPosition (decodeRxdec (rxWord st b))) := by
  simp only [rxTable_eq, List.findIdx?_cons, beq_iff_eq, rxWord_masked_eq, rxWord_full_eq, decodeRxdec_rxWord]
  rcases stateCode_cases st with rfl | rfl | rfl | rfl | rfl | rfl | rfl | rfl
  · by_cases hb : b = sync1 <;> simp [hb, rowPosition]
  · by_cases hb : b = sync2 <;> simp [hb, rowPosition]
  all_goals simp [rowPosition]

/-- Settles O3: the order of the tests is the order of the table, and the word of the selected row is the word that
was decoded. -/
theorem rxdecSelectsTheFirstMatchingRow : Obligations.RxdecSelectsTheFirstMatchingRow :=
  fun k => ⟨rxWord_rxCode_rxByte k ▸ findIdx?_rxTable_rxWord (rxCode k) (rxByte k),
    (encodeOfDecodeIsTheWord (.rxdec k)).2⟩

end Sys2Proof.Machine

/-! The CRC Engine (`40_crc.md`): one shift is linear over XOR and loses no information, so both hold of the step on
a byte and of the checksum of a sequence. -/

namespace Sys2Proof.Machine

/-! ### One shift -/

/-- What a shift XORs in for the bit it shifts out: the polynomial 0x07 or nothing (`40_crc.md` R80). -/
def crcFeedback (out : Bool) : Byte := if out then 0x07 else 0

theorem crcFeedback_xor : ∀ x y : Bool, crcFeedback (x ^^ y) = crcFeedback x ^^^ crcFeedback y := by decide

theorem crcShift_eq (r : Byte) : crcShift r = r <<< 1 ^^^ crcFeedback r.msb := by
  cases h : r.msb <;> simp [crcShift, crcFeedback, h]

theorem crcShift_xor (r u : Byte) : crcShift (r ^^^ u) = crcShift r ^^^ crcShift u := by
  simp only [crcShift_eq, BitVec.msb_xor, BitVec.shiftLeft_xor_distrib, crcFeedback_xor]
  ac_rfl

/-- The bit shifted out comes back as bit 0 of 0x07, where the shift itself leaves a zero. -/
theorem getLsbD_zero_crcShift (r : Byte) : (crcShift r).getLsbD 0 = r.msb := by
  cases h : r.msb <;> simp [crcShift_eq, crcFeedback, h]

theorem eq_zero_of_crcShift_eq_zero {r : Byte} (h : crcShift r = 0) : r = 0 := by
  have hmsb : r.msb = false := by simpa [h] using (getLsbD_zero_crcShift r).symm
  have hshift : r <<< 1 = 0#8 := by simpa [crcShift_eq, crcFeedback, hmsb] using h
  have hlt := BitVec.msb_eq_false_iff_two_mul_lt.mp hmsb
  bv_omega

theorem crcShift_injective : Function.Injective crcShift := fun r u h => by
  have hxor : crcShift (r ^^^ u) = 0 := by rw [crcShift_xor, h, BitVec.xor_self]; rfl
  exact BitVec.xor_eq_zero_iff.mp (eq_zero_of_crcShift_eq_zero hxor)

/-! ### Any number of shifts -/

theorem crcShifts_zero_byte (n : Nat) : crcShifts n 0 = 0 := by
  induction n with
  | zero => rfl
  | succ n ih => exact ih

theorem crcShifts_xor (n : Nat) (r u : Byte) : crcShifts n (r ^^^ u) = crcShifts n r ^^^ crcShifts n u := by
  induction n generalizing r u with
  | zero => rfl
  | succ n ih => simp only [crcShifts, crcShift_xor, ih]

theorem crcShifts_injective (n : Nat) : Function.Injective (crcShifts n) := by
  induction n with
  | zero => exact Function.injective_id
  | succ n ih => exact ih.comp crcShift_injective

/-! ### The step on one byte -/

/-- The step reads its operands through their XOR alone (`40_crc.md` R85). -/
theorem crc8Step_eq_zero_xor (c b : Byte) : crc8Step c b = crc8Step 0 (c ^^^ b) :=
  congrArg (crcShifts 8) BitVec.zero_xor.symm

/-- A byte equal to the running value cancels it. -/
theorem crc8Step_self (c : Byte) : crc8Step c c = 0 :=
  (congrArg (crcShifts 8) BitVec.xor_self).trans (crcShifts_zero_byte 8)

theorem crc8Step_xor (c1 c2 b1 b2 : Byte) :
    crc8Step (c1 ^^^ c2) (b1 ^^^ b2) = crc8Step c1 b1 ^^^ crc8Step c2 b2 :=
  calc crc8Step (c1 ^^^ c2) (b1 ^^^ b2)
      = crcShifts 8 ((c1 ^^^ b1) ^^^ (c2 ^^^ b2)) := by
        rw [crc8Step]; congr 1; ac_rfl
    _ = crc8Step c1 b1 ^^^ crc8Step c2 b2 := crcShifts_xor 8 _ _

theorem crc8Step_left_inj {c1 c2 b : Byte} : crc8Step c1 b = crc8Step c2 b ↔ c1 = c2 :=
  (crcShifts_injective 8).eq_iff.trans (BitVec.xor_left_inj b)

theorem crc8Step_right_inj {c b1 b2 : Byte} : crc8Step c b1 = crc8Step c b2 ↔ b1 = b2 :=
  (crcShifts_injective 8).eq_iff.trans (BitVec.xor_right_inj c)

/-! ### Sequences -/

theorem foldl_crc8Step_xor (c d : Byte) {p q : List Byte} (h : p.length = q.length) :
    (List.zipWith (fun a b => a ^^^ b) p q).foldl crc8Step (c ^^^ d) = p.foldl crc8Step c ^^^ q.foldl crc8Step d := by
  induction p generalizing c d q with
  | nil => obtain rfl := List.length_eq_zero_iff.mp h.symm; rfl
  | cons a p ih =>
    match q, h with
    | b :: q, h =>
      simp only [List.zipWith_cons_cons, List.foldl_cons, crc8Step_xor]
      exact ih _ _ (Nat.succ.inj h)

/-- Bytes that follow keep running values apart. -/
theorem foldl_crc8Step_left_inj (q : List Byte) {c d : Byte} :
    q.foldl crc8Step c = q.foldl crc8Step d ↔ c = d := by
  induction q generalizing c d with
  | nil => rfl
  | cons b q ih => exact ih.trans crc8Step_left_inj

theorem checksum_append (p q : List Byte) : checksum (p ++ q) = q.foldl crc8Step (checksum p) := List.foldl_append

/-- The incremental form (`40_crc.md` R84). -/
theorem checksum_concat (p : List Byte) (b : Byte) : checksum (p ++ [b]) = crc8Step (checksum p) b :=
  checksum_append p [b]

theorem checksum_zipWith_xor {p q : List Byte} (h : p.length = q.length) :
    checksum (List.zipWith (fun a b => a ^^^ b) p q) = checksum p ^^^ checksum q :=
  foldl_crc8Step_xor 0 0 h

theorem checksum_append_checksum (p : List Byte) : checksum (p ++ [checksum p]) = 0 :=
  (checksum_concat p _).trans (crc8Step_self _)

/-- Sequences that differ in one byte alone have different checksums. -/
theorem checksum_middle_inj {p q : List Byte} {a b : Byte} :
    checksum (p ++ a :: q) = checksum (p ++ b :: q) ↔ a = b := by
  rw [checksum_append, checksum_append]
  exact (foldl_crc8Step_left_inj q).trans crc8Step_right_inj

theorem xor_twoPow_ne (b : Byte) {k : Nat} (hk : k < 8) : b ^^^ BitVec.twoPow 8 k ≠ b := fun h => by
  have hbit := congrArg (BitVec.getLsbD · k) h
  simp [hk] at hbit

/-- Settles O32. -/
theorem crcIsLinear : Obligations.CrcIsLinear :=
  ⟨crc8Step_xor, fun _ _ => checksum_zipWith_xor, checksum_append_checksum⟩

/-- Settles O33: a flipped bit makes the byte another one, and the checksum tells any two bytes at one place apart. -/
theorem singleBitErrorsAreDetected : Obligations.SingleBitErrorsAreDetected :=
  fun _ _ b _ hk h => xor_twoPow_ne b hk (checksum_middle_inj.mp h)

/-! ### The port, the table and the incremental form -/

/-- Settles O29: the port writes its output register and nothing else; the three values are those of
`40_crc.md` R80. -/
theorem crcStepPortDrivesTheStep : Obligations.CrcStepPortDrivesTheStep :=
  ⟨fun _ _ _ => rfl, by decide, by decide, by decide⟩

/-- The printed table is the step from 0 on each byte in order (`40_crc.md` R85). -/
theorem crcTable_eq : crcTable = (List.range 256).map fun i => crc8Step 0 (BitVec.ofNat 8 i) := by
  decide +kernel

theorem crcTable_getElem? (i : Byte) : crcTable[i.toNat]? = some (crc8Step 0 i) := by
  simp [crcTable_eq, List.getElem?_range i.isLt]

/-- Settles O30. -/
theorem crcTableForm : Obligations.CrcTableForm :=
  ⟨by simp [crcTable_eq], fun c b => by rw [crc8Step_eq_zero_xor, crcTable_getElem?]⟩

/-- Settles O31. -/
theorem crcIncrementalForm : Obligations.CrcIncrementalForm :=
  ⟨checksum_concat, rfl⟩

end Sys2Proof.Machine

/-! The receiver rows (`41_receiver.md` R90 to R100): the row FEED performs in each receiver state, and what each row
leaves. -/

namespace Sys2Proof.Machine

variable {s t : State}

/-! ### Selection -/

/-- The meaning of a row's instruction is the row. -/
theorem exec_instr (r : RxRow) (s : State) : exec r.instr s = performRow r s := by
  cases r <;> rfl

/-- Settles O10: the word that FEED forms from the receiver state and its byte is `{rx_state, b}`. -/
theorem feedPerformsTheSelectedRow : Obligations.FeedPerformsTheSelectedRow := by
  intro s b hs
  rw [exec_instr]
  exact execFeed_started b hs

theorem execFeed_sync1Hit (hs : s.started = true) (hrx : s.rxState = 0) : execFeed sync1 s = execRxSync1Hit s := by
  rw [execFeed_sync1 sync1 hs hrx, if_pos rfl]

theorem execFeed_sync2Hit (hs : s.started = true) (hrx : s.rxState = 1) : execFeed sync2 s = execRxSync2Hit s := by
  rw [execFeed_sync2 sync2 hs hrx, if_pos rfl]

/-- Settles O11: the four rows by their pseudocode, their selection by the byte each state waits for. -/
theorem syncRowsMoveTheReceiver : Obligations.SyncRowsMoveTheReceiver := by
  refine fun s b => ⟨rfl, rfl, rfl, rfl, execFeed_sync1Hit, fun hs hrx hb => ?_, execFeed_sync2Hit,
    fun hs hrx hb => ?_⟩
  · exact (execFeed_sync1 b hs hrx).trans (if_neg hb)
  · exact (execFeed_sync2 b hs hrx).trans (if_neg hb)

/-- Settles O12: the length register holds its two bytes apart, so its high byte reads as before. -/
theorem headerRowsStoreTheirByte : Obligations.HeaderRowsStoreTheirByte := by
  refine fun s b => ⟨rfl, rfl, ?_, execFeed_frameId b, execFeed_lenLow b⟩
  rw [LenReg.value_high, LenReg.value]

/-- Settles O13, by the two cases of a LenHigh byte. -/
theorem lenHighChecksTheLength : Obligations.LenHighChecksTheLength := by
  intro s b
  have hlen : (s.declaredLength.setHigh b).value.toNat = b.toNat * 256 + s.declaredLength.lo.toNat :=
    LenReg.value_toNat _
  refine ⟨?_, fun hmatch => ?_, fun hne => ?_, execFeed_lenHigh b⟩
  · rw [LenReg.value_low, LenReg.value]
  · exact (execRxLenHigh_eq b s).1 (hlen.trans hmatch)
  · exact (execRxLenHigh_eq b s).2 (hlen ▸ hne)

/-- Settles O17. -/
theorem illegalReceiverStateFaults : Obligations.IllegalReceiverStateFaults :=
  fun _ b => ⟨rfl, execFeed_illegal b⟩

/-! ### Payload -/

/-- Both cases of a payload byte whose index is in range: the counter reaches `L` or does not. -/
theorem execRxPayload_eq (b : Byte) (hin : s.bytesReceived.toNat < payloadLen s.cfg) :
    ((s.bytesReceived + 1).toNat = payloadLen s.cfg →
      execRxPayload b s = .next (emit .idle (setRxState 6 (setBytesReceived (s.bytesReceived + 1)
        (setPay (storeByte .pay s.pay s.bytesReceived.toNat b) s))))) ∧
    ((s.bytesReceived + 1).toNat ≠ payloadLen s.cfg →
      execRxPayload b s = .next (emit .idle (setBytesReceived (s.bytesReceived + 1)
        (setPay (storeByte .pay s.pay s.bytesReceived.toNat b) s)))) :=
  ⟨fun h => by simp only [execRxPayload, writePay, hin, h, if_true],
    fun h => by simp only [execRxPayload, writePay, hin, h, if_true, if_false]⟩

/-- Settles O14: the store answers the byte at its own address and nothing else, and the counter does not wrap. -/
theorem payloadByteIsStoredAndCounted : Obligations.PayloadByteIsStoredAndCounted := by
  intro s b hin hmax
  have hsucc := count_succ_toNat hin hmax
  have hread := fun a => readByte_storePay s s.bytesReceived.toNat a b
  have hnew := (hread s.bytesReceived.toNat).trans (if_pos rfl)
  have hold := fun a (hne : a ≠ s.bytesReceived.toNat) => (hread a).trans (if_neg hne)
  refine ⟨execFeed_payload b, ?_⟩
  by_cases hlast : s.bytesReceived.toNat + 1 = payloadLen s.cfg
  · exact ⟨_, (execRxPayload_eq b hin).1 (hsucc.trans hlast), hnew, hold, fun _ => rfl, hsucc,
      (if_pos hlast).symm, rfl⟩
  · exact ⟨_, (execRxPayload_eq b hin).2 (hsucc ▸ hlast), hnew, hold, fun _ => rfl, hsucc,
      (if_neg hlast).symm, rfl⟩

/-! ### Crc -/

/-- The mapper sends a cell into its own row of slots. -/
theorem serp_div_width {c : Config} {x y : Nat} (hx : x < c.w) : serp c x y / c.w = y := by
  have hlow : y * c.w ≤ serp c x y := by
    unfold serp
    split <;> omega
  have hhigh : serp c x y < (y + 1) * c.w := by
    rw [Nat.succ_mul]
    unfold serp
    split <;> omega
  exact Nat.div_eq_of_lt_le hlow hhigh

/-- No two cells of the grid share a slot. -/
theorem serp_inj {c : Config} {x y x' y' : Nat} (hx : x < c.w) (hx' : x' < c.w)
    (h : serp c x y = serp c x' y') : x = x' ∧ y = y' := by
  have hy : y = y' := by rw [← serp_div_width (y := y) hx, h, serp_div_width hx']
  subst hy
  unfold serp at h
  split at h <;> exact ⟨by omega, rfl⟩

/-- After the writes of an apply every cell of the grid shows its triplet, and no byte from `L` on has changed. -/
theorem readByte_applyCells {p : List Byte} {m : List Host.Cell} (hp : p.length = payloadLen s.cfg)
    (h : applyCells p (gridCells s.cfg) s = .ok (setPix m s)) :
    (∀ x y c, x < s.cfg.w → y < s.cfg.h → c < 3 →
      p[3 * cellIndex s.cfg x y + c]? = some (readByte (setPix m s) .pix (3 * serp s.cfg x y + c))) ∧
    ∀ a, payloadLen s.cfg ≤ a → readByte (setPix m s) .pix a = readByte s .pix a := by
  obtain ⟨m', happly, hcells, hrest, -⟩ := applyCells_spec p (gridCells s.cfg) s hp fun _ hq => mem_gridCells.mp hq
  have hstate : setPix m s = setPix m' s := Except.ok.inj (h.symm.trans happly)
  rw [hstate]
  refine ⟨fun x y c hx hy hc => hcells (x, y) (mem_gridCells.mpr ⟨hx, hy⟩) (fun r hr hserp => ?_) c hc,
    fun a ha => hrest a fun q hq hslot => ?_⟩
  · obtain ⟨h1, h2⟩ := serp_inj (mem_gridCells.mp hr).1 hx hserp
    exact Prod.ext h1 h2
  · have hlt := serp_lt (mem_gridCells.mp hq).1 (mem_gridCells.mp hq).2
    rw [payloadLen_eq] at ha
    omega

/-- A matching CRC byte reports the payload, displays it, flushes the finished buffer once and stamps the time; no
other field changes. -/
theorem execRxCrc_accepts {b : Byte} (hmatch : checksum (payload s) = b) :
    ∃ t, execRxCrc b s = .next t ∧
      (∀ x y c, x < s.cfg.w → y < s.cfg.h → c < 3 →
        (payload s)[3 * cellIndex s.cfg x y + c]? = some (readByte t .pix (3 * serp s.cfg x y + c))) ∧
      (∀ a, payloadLen s.cfg ≤ a → readByte t .pix a = readByte s .pix a) ∧
      t = { s with
            pix := t.pix
            results := .frameReady (payload s) :: s.results
            flushes := ⟨pixels t, s.cfg.brightness, s.cfg.currentLimit⟩ :: s.flushes
            lastOkMs := sampledNow s
            rxState := 0 } := by
  obtain ⟨m, happly, hnext⟩ := (execRxCrc_eq b s).1 hmatch
  obtain ⟨hcells, hrest⟩ := readByte_applyCells (length_payload s) happly
  have hpixels : pixels (setRxState 0 (stampLastOk (flush (setPix m (emit (.frameReady (payload s)) s))))) =
      pixels (setPix m (emit (.frameReady (payload s)) s)) := pixels_congr rfl rfl
  refine ⟨_, hnext, hcells, hrest, ?_⟩
  rw [hpixels]
  rfl

/-- Settles O16: every address the display shows holds a byte of the payload below `L`. -/
theorem crcByteAppliesOrRejects : Obligations.CrcByteAppliesOrRejects := by
  refine fun s b => ⟨fun hmatch => ?_, (execRxCrc_eq b s).2, execFeed_crc b⟩
  obtain ⟨t, hnext, hcells, hrest, ht⟩ := execRxCrc_accepts hmatch
  refine ⟨t, hnext, fun x y c hx hy hc => ?_, hrest, fun a => ?_, ht⟩
  · have hbound : 3 * cellIndex s.cfg x y + c < payloadLen s.cfg := by
      have hlt := cellIndex_lt hx hy
      rw [payloadLen_eq]
      omega
    exact Option.some.inj ((hcells x y c hx hy hc).symm.trans (payload_getElem? s hbound))
  · rw [ht]
    exact readByte_congr rfl rfl a

/-! ### Every byte is answered -/

/-- In every receiver state but 7, with the counter in range while a payload is taken, FEED answers. -/
theorem execFeed_answers (b : Byte) (hs : s.started = true) (hrx : s.rxState ≠ 7)
    (hin : s.rxState = 5 → s.bytesReceived.toNat < payloadLen s.cfg) : ∃ t, execFeed b s = .next t := by
  rcases rxState_cases s.rxState with h | h | h | h | h | h | h | h
  · rw [execFeed_sync1 b hs h]
    split <;> exact ⟨_, rfl⟩
  · rw [execFeed_sync2 b hs h]
    split <;> exact ⟨_, rfl⟩
  · exact ⟨_, execFeed_frameId b hs h⟩
  · exact ⟨_, execFeed_lenLow b hs h⟩
  · rw [execFeed_lenHigh b hs h]
    by_cases hlen : (s.declaredLength.setHigh b).value.toNat = payloadLen s.cfg
    · exact ⟨_, (execRxLenHigh_eq b s).1 hlen⟩
    · exact ⟨_, (execRxLenHigh_eq b s).2 hlen⟩
  · rw [execFeed_payload b hs h]
    by_cases hlast : (s.bytesReceived + 1).toNat = payloadLen s.cfg
    · exact ⟨_, (execRxPayload_eq b (hin h)).1 hlast⟩
    · exact ⟨_, (execRxPayload_eq b (hin h)).2 hlast⟩
  · rw [execFeed_crc b hs h]
    by_cases hmatch : checksum (payload s) = b
    · obtain ⟨t, hnext, -⟩ := execRxCrc_accepts hmatch
      exact ⟨t, hnext⟩
    · exact ⟨_, (execRxCrc_eq b s).2 hmatch⟩
  · exact absurd h hrx

/-- Settles O18: FEED answers, and a row that answers has emitted one result, with a flush only if it applied a
frame. -/
theorem feedAlwaysCompletesWithOneResult : Obligations.FeedAlwaysCompletesWithOneResult := by
  intro s b hs hrx hin
  obtain ⟨t, hnext⟩ := execFeed_answers b hs hrx hin
  rcases performRow_cases (execFeed_cases hnext).2 with ⟨hframe, r, hresults, -⟩ | ⟨c, m, -, -, -, rfl⟩
  · have hflushes : t.flushes = s.flushes := by rw [hframe]
    exact ⟨t, r, hnext, hresults, .inl hflushes⟩
  · exact ⟨_, _, hnext, rfl, .inr ⟨rfl, _, rfl⟩⟩

/-! ### What leaves the receiver alone -/

/-- The registers of the receiver, PAY and the timestamp are as before, and so are the inputs to come and what
decides whether an event is performed. -/
structure ReceiverKept (s t : State) : Prop where
  cfg : t.cfg = s.cfg
  started : t.started = s.started
  rxState : t.rxState = s.rxState
  frameId : t.frameId = s.frameId
  declaredLength : t.declaredLength = s.declaredLength
  bytesReceived : t.bytesReceived = s.bytesReceived
  payBytes : ∀ a, readByte t .pay a = readByte s .pay a
  lastOkMs : t.lastOkMs = s.lastOkMs
  pending : t.pending = s.pending

/-- A TICK, stale or not, leaves the receiver alone. -/
theorem execTick_receiverKept {d : Byte} (h : execTick d s = .next t) : ReceiverKept s t := by
  obtain ⟨-, ⟨-, rfl⟩ | ⟨-, m, -, rfl⟩⟩ := execTick_cases h <;>
    exact ⟨rfl, rfl, rfl, rfl, rfl, rfl, fun _ => rfl, rfl, rfl⟩

/-- A TICK of a running block answers. -/
theorem execTick_answers (d : Byte) (hs : s.started = true) : ∃ t, execTick d s = .next t := by
  cases hstale : stale s with
  | false => exact ⟨_, (execTick_eq d s hs).1 hstale⟩
  | true =>
    obtain ⟨m, -, hnext⟩ := (execTick_eq d s hs).2 hstale
    exact ⟨_, hnext⟩

/-- Settles O19: a TICK by its two cases, the ports because they drive their own output alone. -/
theorem onlyFeedAndResetWriteTheReceiver : Obligations.OnlyFeedAndResetWriteTheReceiver := by
  rintro i s t hexec (⟨d, rfl⟩ | ⟨c, d, rfl⟩ | ⟨x, y, rfl⟩)
  · have hkept := execTick_receiverKept (d := d) hexec
    exact ⟨hkept.rxState, hkept.frameId, hkept.declaredLength, hkept.bytesReceived, hkept.payBytes⟩
  · cases hexec
    exact ⟨rfl, rfl, rfl, rfl, fun _ => rfl⟩
  · simp only [exec, execSerpMap] at hexec
    split at hexec <;> cases hexec
    exact ⟨rfl, rfl, rfl, rfl, fun _ => rfl⟩

/-- Settles O39, by induction on the TICKs: each answers and leaves the next one the same receiver. -/
theorem ticksNeverMoveTheReceiver : Obligations.TicksNeverMoveTheReceiver := by
  intro s times rest hs hlegal hp
  induction times generalizing s with
  | nil => exact ⟨s, rfl, rfl, rfl, rfl, rfl, fun _ => rfl, rfl, hp⟩
  | cons now times ih =>
    obtain ⟨u, hnext⟩ := execTick_answers (s := afterFetch s (times.map tickEvent ++ rest) now) 0 hs
    have hkept := execTick_receiverKept hnext
    obtain ⟨t, hrun, hrx, hid, hlen, hcount, hpay, htime, hrest⟩ :=
      ih u (hkept.started.trans hs) (by rw [hkept.cfg]; exact hlegal) hkept.pending
    refine ⟨t, (runSteps_succ_of_next ((step_tick hlegal hp).trans hnext)).trans hrun, hrx.trans hkept.rxState,
      hid.trans hkept.frameId, hlen.trans hkept.declaredLength, hcount.trans hkept.bytesReceived,
      fun a => (hpay a).trans (hkept.payBytes a), htime.trans hkept.lastOkMs, hrest⟩

end Sys2Proof.Machine

/-! Frames on the wire (`41_receiver.md` R103, R107, R108): runs of FEED events through a header, a payload and a
CRC byte. -/

namespace Sys2Proof.Machine

variable {s t : State} {rest : List Input}

/-! ### Runs of FEED events -/

theorem payloadLen_pos {c : Config} (h : legalConfig c = true) : 0 < payloadLen c := by
  obtain ⟨hw, hh, -⟩ := legalConfig_iff.mp h
  exact Nat.mul_pos (Nat.mul_pos hw hh) (by decide)

theorem feedsAt_append {bs bs' : List Byte} {times times' : List Nat} (h : bs.length = times.length) :
    feedsAt (bs ++ bs') (times ++ times') = feedsAt bs times ++ feedsAt bs' times' :=
  List.zipWith_append h

/-- A run whose first input is a FEED that answers goes on from that answer. -/
theorem runSteps_feed {b : Byte} {now : Nat} (n : Nat) (hl : legalConfig s.cfg = true)
    (hp : s.pending = feedEvent b now :: rest) (hnext : execFeed b (afterFetch s rest now) = .next t) :
    runSteps (n + 1) s = runSteps n t :=
  runSteps_succ_of_next ((step_feed b hl hp).trans hnext)

/-- What bytes answered with Idle leave of a state: the display, the flushes and the timestamp are untouched and one
Idle has been emitted for each. -/
structure IdleRun (n : Nat) (s t : State) : Prop where
  cfg : t.cfg = s.cfg
  started : t.started = s.started
  pix : t.pix = s.pix
  lastOkMs : t.lastOkMs = s.lastOkMs
  flushes : t.flushes = s.flushes
  results : t.results = List.replicate n .idle ++ s.results

theorem IdleRun.refl (s : State) : IdleRun 0 s s := ⟨rfl, rfl, rfl, rfl, rfl, rfl⟩

theorem IdleRun.trans {m n : Nat} {u : State} (h : IdleRun m s t) (h' : IdleRun n t u) : IdleRun (n + m) s u where
  cfg := h'.cfg.trans h.cfg
  started := h'.started.trans h.started
  pix := h'.pix.trans h.pix
  lastOkMs := h'.lastOkMs.trans h.lastOkMs
  flushes := h'.flushes.trans h.flushes
  results := by
    rw [h'.results, h.results, ← List.append_assoc, List.replicate_append_replicate]

/-- Taking an input is no part of what is compared. -/
theorem IdleRun.of_afterFetch {n now : Nat} {r : List Input} (h : IdleRun n (afterFetch s r now) t) : IdleRun n s t :=
  ⟨h.cfg, h.started, h.pix, h.lastOkMs, h.flushes, h.results⟩

theorem IdleRun.afterFetch {n : Nat} (h : IdleRun n s t) (r : List Input) (now : Nat) :
    IdleRun n s (afterFetch t r now) :=
  ⟨h.cfg, h.started, h.pix, h.lastOkMs, h.flushes, h.results⟩

/-! ### The header -/

/-- The state part way through a header: `n` bytes answered with Idle have brought the receiver to the given state
with the given id and length. -/
def inHeader (s : State) (n : Nat) (code : BitVec 3) (id : Byte) (len : LenReg) (now : Nat) (rest : List Input) :
    State :=
  { s with
    rxState := code
    frameId := id
    declaredLength := len
    nowMs := now
    pending := rest
    results := List.replicate n .idle ++ s.results }

/-- The state in which the LenHigh byte is performed, after the bytes `AA 55 id lo` of a header. -/
def atLenHigh (s : State) (id lo : Byte) (now : Nat) (rest : List Input) : State :=
  inHeader s 4 4 id (s.declaredLength.setLow lo) now rest

/-- The two length bytes of a header spell its length, little-endian. -/
theorem headerLength_toNat {n : Nat} (hn : n < 65536) :
    (⟨BitVec.ofNat 8 (n / 256), BitVec.ofNat 8 n⟩ : LenReg).value.toNat = n := by
  rw [LenReg.value_toNat, BitVec.toNat_ofNat, BitVec.toNat_ofNat]
  omega

/-- A header fed to a receiver that hunts for SYNC1 comes to its LenHigh byte, whatever its length. -/
theorem runSteps_header {id lo hi : Byte} {t1 t2 t3 t4 t5 : Nat} (hs : s.started = true)
    (hl : legalConfig s.cfg = true) (hrx : s.rxState = 0)
    (hp : s.pending = feedsAt [sync1, sync2, id, lo, hi] [t1, t2, t3, t4, t5] ++ rest) :
    runSteps 5 s = execRxLenHigh hi (atLenHigh s id lo t5 rest) :=
  calc runSteps 5 s
    _ = runSteps 4 (inHeader s 1 1 s.frameId s.declaredLength t1
          (feedsAt [sync2, id, lo, hi] [t2, t3, t4, t5] ++ rest)) :=
      runSteps_feed 4 hl hp (execFeed_sync1Hit hs hrx)
    _ = runSteps 3 (inHeader s 2 2 s.frameId s.declaredLength t2 (feedsAt [id, lo, hi] [t3, t4, t5] ++ rest)) :=
      runSteps_feed 3 hl rfl (execFeed_sync2Hit hs rfl)
    _ = runSteps 2 (inHeader s 3 3 id s.declaredLength t3 (feedsAt [lo, hi] [t4, t5] ++ rest)) :=
      runSteps_feed 2 hl rfl (execFeed_frameId id hs rfl)
    _ = runSteps 1 (inHeader s 4 4 id (s.declaredLength.setLow lo) t4 (feedEvent hi t5 :: rest)) :=
      runSteps_feed 1 hl rfl (execFeed_lenLow lo hs rfl)
    _ = execFeed hi (atLenHigh s id lo t5 rest) := Eq.trans (runSteps_one _) (step_feed hi hl rfl)
    _ = execRxLenHigh hi (atLenHigh s id lo t5 rest) := execFeed_lenHigh hi hs rfl

/-- Settles O21: the header comes to its LenHigh byte, whose length does not match. -/
theorem wrongLengthHeaderIsRejected : Obligations.WrongLengthHeaderIsRejected := by
  intro s id n times rest hs hl hrx hn hne htimes hp
  match times, htimes with
  | [t1, t2, t3, t4, t5], _ =>
    have hlen := headerLength_toNat hn
    have hreject := (execRxLenHigh_eq (BitVec.ofNat 8 (n / 256)) (atLenHigh s id (BitVec.ofNat 8 n) t5 rest)).2
      (fun hmatch => hne (hlen.symm.trans hmatch))
    exact ⟨_, (runSteps_header hs hl hrx hp).trans hreject, rfl, rfl, rfl, hlen, rfl, rfl⟩

/-- A header of length `L` leaves the receiver in Payload with nothing counted. -/
theorem runSteps_frameHeader {id : Byte} {times : List Nat} (hs : s.started = true) (hl : legalConfig s.cfg = true)
    (hrx : s.rxState = 0) (htimes : times.length = 5)
    (hp : s.pending = feedsAt (headerBytes id (payloadLen s.cfg)) times ++ rest) :
    ∃ t, runSteps 5 s = .next t ∧ IdleRun 5 s t ∧ t.rxState = 5 ∧ t.bytesReceived = 0 ∧ t.pending = rest := by
  match times, htimes with
  | [t1, t2, t3, t4, t5], _ =>
    have hlen := headerLength_toNat (Nat.lt_succ_of_le (payloadLen_le hl))
    have haccept := (execRxLenHigh_eq (BitVec.ofNat 8 (payloadLen s.cfg / 256))
      (atLenHigh s id (BitVec.ofNat 8 (payloadLen s.cfg)) t5 rest)).1 hlen
    exact ⟨_, (runSteps_header hs hl hrx hp).trans haccept, ⟨rfl, rfl, rfl, rfl, rfl, rfl⟩, rfl, rfl, rfl⟩

/-! ### The payload -/

/-- The bytes of PAY that the counter has counted. -/
def countedBytes (s : State) : List Byte := (List.range s.bytesReceived.toNat).map (readByte s .pay)

theorem countedBytes_eq_payload (h : s.bytesReceived.toNat = payloadLen s.cfg) : countedBytes s = payload s := by
  rw [countedBytes, h, payload]

/-- A byte stored at the counter and counted is the last of the counted bytes. -/
theorem countedBytes_succ {b : Byte} (hcount : t.bytesReceived.toNat = s.bytesReceived.toNat + 1)
    (hnew : readByte t .pay s.bytesReceived.toNat = b)
    (hold : ∀ a, a ≠ s.bytesReceived.toNat → readByte t .pay a = readByte s .pay a) :
    countedBytes t = countedBytes s ++ [b] := by
  have hkept : (List.range s.bytesReceived.toNat).map (readByte t .pay) = countedBytes s :=
    List.map_congr_left fun a ha => hold a (Nat.ne_of_lt (List.mem_range.mp ha))
  rw [countedBytes, hcount, List.range_succ, List.map_append, hkept, List.map_singleton, hnew]

/-- One payload byte: answered with Idle, counted, and the last one moves the receiver to Crc. -/
theorem execFeed_countsByte (b : Byte) (hs : s.started = true) (hl : legalConfig s.cfg = true) (hrx : s.rxState = 5)
    (hin : s.bytesReceived.toNat < payloadLen s.cfg) :
    ∃ t, execFeed b s = .next t ∧ IdleRun 1 s t ∧
      t.rxState = (if t.bytesReceived.toNat = payloadLen s.cfg then 6 else 5) ∧
      t.bytesReceived.toNat = s.bytesReceived.toNat + 1 ∧ countedBytes t = countedBytes s ++ [b] ∧
      t.pending = s.pending := by
  obtain ⟨hfeed, t, hnext, hnew, hold, -, hcount, hrx', ht⟩ :=
    payloadByteIsStoredAndCounted s b hin (payloadLen_le hl)
  rw [← hcount, hrx] at hrx'
  refine ⟨t, (hfeed hs hrx).trans hnext, ?_, hrx', hcount, countedBytes_succ hcount hnew hold, ?_⟩ <;> rw [ht]
  exact ⟨rfl, rfl, rfl, rfl, rfl, rfl⟩

/-- The rest of a payload, fed to a receiver that has counted the bytes before it, leaves the receiver in Crc with the
whole payload in PAY. -/
theorem runSteps_payload {bs : List Byte} {times : List Nat} (hs : s.started = true)
    (hl : legalConfig s.cfg = true) (hrx : s.rxState = if s.bytesReceived.toNat = payloadLen s.cfg then 6 else 5)
    (hcount : s.bytesReceived.toNat + bs.length = payloadLen s.cfg) (htimes : times.length = bs.length)
    (hp : s.pending = feedsAt bs times ++ rest) :
    ∃ t, runSteps bs.length s = .next t ∧ IdleRun bs.length s t ∧ t.rxState = 6 ∧
      payload t = countedBytes s ++ bs ∧ t.pending = rest := by
  induction bs generalizing s times with
  | nil =>
    rw [List.append_nil, countedBytes_eq_payload hcount]
    exact ⟨s, rfl, .refl s, hrx.trans (if_pos hcount), rfl, hp⟩
  | cons b bs ih =>
    obtain ⟨now, times, rfl⟩ := List.exists_cons_of_length_eq_add_one htimes
    rw [List.length_cons] at hcount
    have hin : s.bytesReceived.toNat < payloadLen s.cfg := by omega
    rw [if_neg (Nat.ne_of_lt hin)] at hrx
    obtain ⟨u, hnext, hidle, hrx', hcount', hcounted, hpending'⟩ :=
      execFeed_countsByte (s := afterFetch s (feedsAt bs times ++ rest) now) b hs hl hrx hin
    have hcfg : u.cfg = s.cfg := hidle.cfg
    have hsucc : u.bytesReceived.toNat = s.bytesReceived.toNat + 1 := hcount'
    obtain ⟨t, hrun, hrest, hcrc, hpayload, hpending⟩ := ih (times := times) (hidle.started.trans hs)
      (by rw [hcfg]; exact hl) (by rw [hcfg]; exact hrx') (by rw [hcfg]; omega) (Nat.succ.inj htimes) hpending'
    refine ⟨t, (runSteps_feed _ hl hp hnext).trans hrun, hidle.of_afterFetch.trans hrest, hcrc, ?_, hpending⟩
    calc payload t = countedBytes u ++ bs := hpayload
      _ = countedBytes s ++ [b] ++ bs := congrArg (· ++ bs) hcounted
      _ = countedBytes s ++ b :: bs := List.append_assoc _ [b] bs

/-! ### Whole frames -/

/-- The arrival times of a frame are those of its header, of its payload and of its CRC byte. -/
theorem exists_frameTimes {times : List Nat} {n : Nat} (h : times.length = n + 6) :
    ∃ header body now, times = header ++ (body ++ [now]) ∧ header.length = 5 ∧ body.length = n := by
  have hne : times.drop 5 ≠ [] := by
    rw [← List.length_pos_iff_ne_nil, List.length_drop]
    omega
  refine ⟨times.take 5, (times.drop 5).dropLast, (times.drop 5).getLast hne, ?_, ?_, ?_⟩
  · rw [List.dropLast_append_getLast, List.take_append_drop]
  · rw [List.length_take]
    omega
  · rw [List.length_dropLast, List.length_drop]
    omega

/-- A frame with any CRC byte comes to that byte with its payload in PAY and Idle at every byte before. -/
theorem runSteps_frame {id c : Byte} {p : List Byte} {times : List Nat} (hs : s.started = true)
    (hl : legalConfig s.cfg = true) (hrx : s.rxState = 0) (hlen : p.length = payloadLen s.cfg)
    (htimes : times.length = payloadLen s.cfg + 6)
    (hp : s.pending = feedsAt (frameBytesWith s.cfg id p c) times ++ rest) :
    ∃ u, runSteps (payloadLen s.cfg + 6) s = execRxCrc c u ∧ IdleRun (payloadLen s.cfg + 5) s u ∧ payload u = p ∧
      u.pending = rest ∧ times.getLast? = some u.nowMs := by
  obtain ⟨header, body, now, rfl, hheader, hbody⟩ := exists_frameTimes htimes
  have hsplit : s.pending = feedsAt (headerBytes id (payloadLen s.cfg)) header ++
      (feedsAt p body ++ (feedEvent c now :: rest)) := by
    have hheader' : (headerBytes id (payloadLen s.cfg)).length = header.length := hheader.symm
    rw [hp, frameBytesWith, List.append_assoc, feedsAt_append hheader', feedsAt_append (hlen.trans hbody.symm),
      List.append_assoc, List.append_assoc]
    rfl
  obtain ⟨v, hrunHeader, hidleHeader, hv5, hv0, hvp⟩ := runSteps_frameHeader hs hl hrx hheader hsplit
  have hcfg := hidleHeader.cfg
  have hpos := payloadLen_pos hl
  obtain ⟨w, hrunBody, hidleBody, hw6, hwPayload, hwp⟩ := runSteps_payload (s := v) (hidleHeader.started.trans hs)
    (by rw [hcfg]; exact hl) (by rw [hv5, hv0, hcfg, if_neg]; exact Nat.ne_of_lt hpos)
    (by rw [hv0, hcfg, ← hlen]; exact Nat.zero_add _) (hbody.trans hlen.symm) hvp
  have hidle := hidleHeader.trans hidleBody
  rw [hlen] at hidle hrunBody
  refine ⟨afterFetch w rest now, ?_, hidle.afterFetch rest now, ?_, rfl, ?_⟩
  · rw [show payloadLen s.cfg + 6 = 5 + (payloadLen s.cfg + 1) by omega, runSteps_add, hrunHeader]
    dsimp only
    rw [runSteps_add, hrunBody]
    dsimp only
    rw [runSteps_one, step_feed c (by rw [hidle.cfg]; exact hl) hwp]
    exact execFeed_crc c (hidle.started.trans hs) hw6
  · calc payload w = countedBytes v ++ p := hwPayload
      _ = p := by rw [countedBytes, hv0]; rfl
  · rw [← List.append_assoc, List.getLast?_concat]
    rfl

/-- Settles O22: the frame comes to its CRC byte, which accepts the payload it finds in PAY. -/
theorem oneFrameGivesOneFrameReady : Obligations.OneFrameGivesOneFrameReady := by
  intro s id p times rest hs hl hrx hlen htimes hp
  obtain ⟨u, hrun, hidle, hpayload, hpending, hlast⟩ := runSteps_frame hs hl hrx hlen htimes hp
  obtain ⟨t, hnext, hcells, -, ht⟩ := execRxCrc_accepts (s := u) (congrArg checksum hpayload)
  have hcfg : t.cfg = s.cfg := by rw [ht]; exact hidle.cfg
  have hnow : t.nowMs = u.nowMs := by rw [ht]
  refine ⟨t, hrun.trans hnext, by rw [ht], ?_, ?_, ?_, ?_, hlast.trans (congrArg some hnow.symm), ?_⟩
  · rw [ht]
    exact hpending
  · rw [ht, hpayload, hidle.results]
  · rw [hpayload, hidle.cfg] at hcells
    exact hcells
  · rw [flushOf, hcfg, ← hidle.cfg, ← hidle.flushes]
    exact congrArg State.flushes ht
  · rw [hnow, ht, sampledNow, hidle.cfg]

/-- Settles O23: the first frame comes to its CRC byte, which rejects it and leaves the receiver hunting, as the frame
that follows needs it. -/
theorem goodFrameAfterCrcRejectionIsAccepted : Obligations.GoodFrameAfterCrcRejectionIsAccepted := by
  intro s id id' c p q times times' rest hs hl hrx hlen hlen' hc htimes htimes' hp
  obtain ⟨v, hrun, hidle, hpayload, hpending, -⟩ := runSteps_frame hs hl hrx hlen htimes hp
  have hreject := (execRxCrc_eq c v).2 (hpayload ▸ hc.symm)
  have hcfg : (reject .crc v).cfg = s.cfg := hidle.cfg
  obtain ⟨u, hrun', hrx', hrest, hresults, -, hflushes, -⟩ :=
    oneFrameGivesOneFrameReady (reject .crc v) id' q times' rest (hidle.started.trans hs) (by rw [hcfg]; exact hl) rfl
      (by rw [hcfg]; exact hlen') (by rw [hcfg]; exact htimes') (by rw [hcfg]; exact hpending)
  rw [hcfg] at hrun' hresults
  refine ⟨reject .crc v, u, hrun.trans hreject, rfl, ?_, hidle.flushes, hidle.lastOkMs, readPix_congr hidle.pix,
    hrun', hrx', hrest, hresults, ?_⟩
  · rw [reject_results, hidle.results]
  · rw [hflushes, reject_flushes, hidle.flushes]

end Sys2Proof.Machine

/-! Arrival times (`41_receiver.md` R101, R104): no receiver row reads the time or the inputs to come, so it commutes
with forgetting them, but for the timestamp it leaves. -/

namespace Sys2Proof.Machine

variable {s t : State} {rest rest' : List Input}

/-! ### Forgetting arrivals -/

/-- The state without what depends on when bytes arrive: the times and the inputs to come. -/
def withoutArrivals (s : State) : State := { s with nowMs := 0, lastOkMs := 0, pending := [] }

/-- Two states that differ at most in their times and in the inputs to come. -/
def SameButArrivals (s t : State) : Prop := withoutArrivals s = withoutArrivals t

/-- An outcome without what depends on when bytes arrive. -/
def forgetArrivals : Out → Out
  | .next s => .next (withoutArrivals s)
  | .fault f => .fault f
  | .refused r => .refused r

theorem Out.related_of_forgetArrivals {o p : Out} (h : forgetArrivals o = forgetArrivals p) :
    Out.related SameButArrivals o p := by
  cases o <;> cases p
  case next.next => exact Host.Outcome.next.inj h
  case fault.fault => exact Host.Outcome.fault.inj h
  case refused.refused => exact Host.Outcome.refused.inj h
  all_goals cases h

theorem SameButArrivals.cfg (h : SameButArrivals s t) : s.cfg = t.cfg := by
  have hcfg := congrArg State.cfg h
  exact hcfg

/-- With the same inputs to come, the times are all that is left to differ in. -/
theorem SameButArrivals.sameButTimes (h : SameButArrivals s t) (hs : s.pending = rest) (ht : t.pending = rest) :
    sameButTimes s t := by
  have hput := congrArg (fun u : State => { u with pending := rest }) h
  unfold Machine.sameButTimes
  calc { s with nowMs := 0, lastOkMs := 0 }
    _ = { withoutArrivals s with pending := rest } := by rw [← hs]; rfl
    _ = { withoutArrivals t with pending := rest } := hput
    _ = { t with nowMs := 0, lastOkMs := 0 } := by rw [← ht]; rfl

/-! ### Receiver rows -/

theorem forgetArrivals_execRxLenHigh (b : Byte) (s : State) :
    forgetArrivals (execRxLenHigh b s) = forgetArrivals (execRxLenHigh b (withoutArrivals s)) := by
  by_cases hlen : (s.declaredLength.setHigh b).value.toNat = payloadLen s.cfg
  · rw [(execRxLenHigh_eq b s).1 hlen, (execRxLenHigh_eq b (withoutArrivals s)).1 hlen]
    rfl
  · rw [(execRxLenHigh_eq b s).2 hlen, (execRxLenHigh_eq b (withoutArrivals s)).2 hlen]
    rfl

theorem forgetArrivals_execRxPayload (b : Byte) (s : State) :
    forgetArrivals (execRxPayload b s) = forgetArrivals (execRxPayload b (withoutArrivals s)) := by
  by_cases hin : s.bytesReceived.toNat < payloadLen s.cfg
  · by_cases hlast : (s.bytesReceived + 1).toNat = payloadLen s.cfg
    · rw [(execRxPayload_eq b hin).1 hlast, (execRxPayload_eq (s := withoutArrivals s) b hin).1 hlast]
      rfl
    · rw [(execRxPayload_eq b hin).2 hlast, (execRxPayload_eq (s := withoutArrivals s) b hin).2 hlast]
      rfl
  · have hbeyond := Nat.not_lt.mp hin
    have hfault : execRxPayload b s = .fault .outOfRangeBufferIndex := payloadBeyondTheBufferFaults s b hbeyond
    have hfault' : execRxPayload b (withoutArrivals s) = .fault .outOfRangeBufferIndex :=
      payloadBeyondTheBufferFaults (withoutArrivals s) b hbeyond
    rw [hfault, hfault']

/-- Only the timestamp of an accepted frame depends on the time. -/
theorem forgetArrivals_execRxCrc (b : Byte) (s : State) :
    forgetArrivals (execRxCrc b s) = forgetArrivals (execRxCrc b (withoutArrivals s)) := by
  have hpayload : payload (withoutArrivals s) = payload s := rfl
  by_cases hmatch : checksum (payload s) = b
  · obtain ⟨m, happly, hnext⟩ := (execRxCrc_eq b s).1 hmatch
    obtain ⟨m', happly', hnext'⟩ := (execRxCrc_eq b (withoutArrivals s)).1 hmatch
    have happly_forgot :=
      applyCells_congr (s := s) (t := withoutArrivals s) (payload s) (gridCells s.cfg) rfl rfl happly
    have hm : m = m' := congrArg State.pix (Except.ok.inj (happly_forgot.symm.trans happly'))
    rw [hnext, hnext', ← hm]
    rfl
  · rw [(execRxCrc_eq b s).2 hmatch, (execRxCrc_eq b (withoutArrivals s)).2 hmatch]
    rfl

/-- Every row: those that only write registers by their pseudocode. -/
theorem forgetArrivals_performRow (r : RxRow) (s : State) :
    forgetArrivals (performRow r s) = forgetArrivals (performRow r (withoutArrivals s)) := by
  cases r with
  | lenHigh b => exact forgetArrivals_execRxLenHigh b s
  | payload b => exact forgetArrivals_execRxPayload b s
  | crc b => exact forgetArrivals_execRxCrc b s
  | _ => rfl

theorem forgetArrivals_execFeed (b : Byte) (s : State) :
    forgetArrivals (execFeed b s) = forgetArrivals (execFeed b (withoutArrivals s)) := by
  cases hs : s.started with
  | true =>
    rw [execFeed_started b hs, execFeed_started (s := withoutArrivals s) b hs]
    exact forgetArrivals_performRow _ s
  | false =>
    have hs' : (withoutArrivals s).started = false := hs
    simp only [execFeed, afterReset, hs, hs']
    rfl

theorem SameButArrivals.execFeed (h : SameButArrivals s t) (b : Byte) :
    Out.related SameButArrivals (execFeed b s) (execFeed b t) := by
  refine Out.related_of_forgetArrivals ?_
  rw [forgetArrivals_execFeed b s, forgetArrivals_execFeed b t, h]

/-! ### Runs -/

/-- A step on a FEED event, behind the check of the configuration. -/
theorem step_feed_eq {b : Byte} {now : Nat} (hp : s.pending = feedEvent b now :: rest) :
    step s = underLegalConfig s (execFeed b (afterFetch s rest now)) := by
  rw [step_event hp, decode_feedWord]
  rfl

/-- A step on a FEED event takes that event alone. -/
theorem step_feed_pending {b : Byte} {now : Nat} (hp : s.pending = feedEvent b now :: rest) (h : step s = .next t) :
    t.pending = rest := by
  obtain ⟨-, hexec⟩ := underLegalConfig_next ((step_feed_eq hp).symm.trans h)
  rcases performRow_cases (execFeed_cases hexec).2 with ⟨hframe, -⟩ | ⟨c, m, -, -, -, rfl⟩
  · rw [hframe]
    rfl
  · rfl

/-- Two states that differ in arrivals alone still do after the same byte. -/
theorem SameButArrivals.step_feed (h : SameButArrivals s t) {b : Byte} {now now' : Nat}
    (hs : s.pending = feedEvent b now :: rest) (ht : t.pending = feedEvent b now' :: rest') :
    Out.related SameButArrivals (step s) (step t) := by
  have hfetched : SameButArrivals (afterFetch s rest now) (afterFetch t rest' now') := h
  rw [step_feed_eq hs, step_feed_eq ht]
  exact Out.related_underLegalConfig h.cfg (hfetched.execFeed b)

/-- Two runs over the same bytes, by induction on the bytes. -/
theorem SameButArrivals.runSteps_feeds {bytes : List Byte} {times times' : List Nat} (h : SameButArrivals s t)
    (htimes : times.length = bytes.length) (htimes' : times'.length = bytes.length)
    (hs : s.pending = feedsAt bytes times ++ rest) (ht : t.pending = feedsAt bytes times' ++ rest) :
    Out.related Machine.sameButTimes (runSteps bytes.length s) (runSteps bytes.length t) := by
  induction bytes generalizing s t times times' with
  | nil => exact h.sameButTimes hs ht
  | cons b bytes ih =>
    obtain ⟨now, times, rfl⟩ := List.exists_cons_of_length_eq_add_one htimes
    obtain ⟨now', times', rfl⟩ := List.exists_cons_of_length_eq_add_one htimes'
    have hnext := h.step_feed hs ht
    rw [List.length_cons, runSteps_succ, runSteps_succ]
    cases hs' : step s <;> cases ht' : step t <;> rw [hs', ht'] at hnext
    case next.next =>
      exact ih hnext (Nat.succ.inj htimes) (Nat.succ.inj htimes') (step_feed_pending hs hs') (step_feed_pending ht ht')
    case fault.fault => exact hnext
    case refused.refused => exact hnext
    all_goals exact hnext.elim

/-- Settles O24: both runs start from one state, but for the arrivals. -/
theorem arrivalTimesDoNotChangeResults : Obligations.ArrivalTimesDoNotChangeResults := by
  intro s bytes times times' rest htimes htimes'
  have h : SameButArrivals { s with pending := feedsAt bytes times ++ rest }
      { s with pending := feedsAt bytes times' ++ rest } := rfl
  exact h.runSteps_feeds htimes htimes' rfl rfl

end Sys2Proof.Machine

/-! The serpentine mapper and the flushes (`42_applier.md` R120 to R128): the mapper in its two kinds of rows and its
inverse, and which instructions deliver a flush. -/

namespace Sys2Proof.Machine

/-! ### The rows of the mapper -/

section Mapper

variable {c : Config} {x y slot : Nat}

theorem serp_of_even (c : Config) (x : Nat) (hy : y % 2 = 0) : serp c x y = y * c.w + x := if_pos hy

theorem serp_of_odd (c : Config) (x : Nat) (hy : y % 2 = 1) : serp c x y = y * c.w + (c.w - 1 - x) :=
  if_neg (by omega)

/-- The slots of a row are its own `W` slots (`42_applier.md` R122). -/
theorem serp_mem_row (hx : x < c.w) : y * c.w ≤ serp c x y ∧ serp c x y < y * c.w + c.w := by
  have hlow := Nat.div_mul_le_self (serp c x y) c.w
  have hhigh := Nat.lt_div_mul_add (a := serp c x y) (Nat.zero_lt_of_lt hx)
  rw [serp_div_width hx] at hlow hhigh
  exact ⟨hlow, hhigh⟩

/-- Even rows map straight, so the column of a slot is its place in the row (`42_applier.md` R128). -/
theorem serp_mod_div_of_even (heven : slot / c.w % 2 = 0) : serp c (slot % c.w) (slot / c.w) = slot := by
  rw [serp_of_even c _ heven, Nat.div_add_mod']

/-- Odd rows are reversed, and reversing twice gives the place in the row back (`42_applier.md` R128). -/
theorem serp_sub_mod_div_of_odd (hw : 0 < c.w) (hodd : slot / c.w % 2 = 1) :
    serp c (c.w - 1 - slot % c.w) (slot / c.w) = slot := by
  have hmod : slot % c.w ≤ c.w - 1 := Nat.le_sub_one_of_lt (Nat.mod_lt slot hw)
  rw [serp_of_odd c _ hodd, Nat.sub_sub_self hmod, Nat.div_add_mod']

/-- Settles O27: in a grid with a slot the width is positive, so the row and both columns are in range. -/
theorem serpInverseMap : Obligations.SerpInverseMap := by
  intro c slot hslot
  have hw : 0 < c.w := Nat.pos_of_lt_mul_right hslot
  exact ⟨Nat.div_lt_of_lt_mul hslot,
    fun heven => ⟨Nat.mod_lt slot hw, serp_mod_div_of_even heven⟩,
    fun hodd => ⟨by omega, serp_sub_mod_div_of_odd hw hodd⟩⟩

/-- Settles O26: the cell of a slot is the one the inverse of the mapper names. -/
theorem serpIsABijection : Obligations.SerpIsABijection := by
  refine fun c => ⟨fun x y hx hy => ⟨serp_lt hx hy, serp_mem_row hx⟩,
    fun x y x' y' hx _ hx' _ => serp_inj hx hx', fun slot hslot => ?_⟩
  obtain ⟨hrow, heven, hodd⟩ := serpInverseMap c slot hslot
  rcases Nat.mod_two_eq_zero_or_one (slot / c.w) with hpar | hpar
  · obtain ⟨hcol, hserp⟩ := heven hpar
    exact ⟨_, _, hcol, hrow, hserp⟩
  · obtain ⟨hcol, hserp⟩ := hodd hpar
    exact ⟨_, _, hcol, hrow, hserp⟩

end Mapper

/-! ### The mapper port -/

variable {s t : State}

theorem exec_serpMap_of_lt {x y : Nat} (hx : x < s.cfg.w) (hy : y < s.cfg.h) :
    exec (.serpMap x y) s = .next (driveMapSlot (serp s.cfg x y) s) := if_pos ⟨hx, hy⟩

theorem exec_serpMap_of_outside {x y : Nat} (h : x ≥ s.cfg.w ∨ y ≥ s.cfg.h) :
    exec (.serpMap x y) s = .refused .mapperInputOutOfRange := if_neg (by omega)

/-- Settles O25: the port drives the mapper's slot, which the parity of the row gives. -/
theorem serpMapPortFollowsTheRows : Obligations.SerpMapPortFollowsTheRows := by
  refine fun s x y => ⟨fun hx hy heven => ?_, fun hx hy hodd => ?_, exec_serpMap_of_outside⟩
  · rw [exec_serpMap_of_lt hx hy, serp_of_even s.cfg x heven]
    rfl
  · rw [exec_serpMap_of_lt hx hy, serp_of_odd s.cfg x hodd]
    rfl

/-! ### Flushes -/

/-- After the flush of a buffer, the newest flush carries the present buffer as long as neither the pixel memory nor
the configuration has changed since. -/
theorem flushes_eq_of_flush {u : State} (hflush : t.flushes = flushOf u :: u.flushes) (hpix : t.pix = u.pix)
    (hcfg : t.cfg = u.cfg) :
    t.flushes = ⟨pixels t, u.cfg.brightness, u.cfg.currentLimit⟩ :: u.flushes := by
  rw [hflush, pixels_congr hpix hcfg]
  rfl

/-- A TICK flushes nothing and leaves PIX alone, or flushes the buffer it leaves. -/
theorem execTick_flushes {d : Byte} (h : execTick d s = .next t) :
    (t.flushes = s.flushes ∧ ∀ a, readByte t .pix a = readByte s .pix a) ∨
    t.flushes = ⟨pixels t, s.cfg.brightness, s.cfg.currentLimit⟩ :: s.flushes := by
  obtain ⟨-, ⟨-, rfl⟩ | ⟨-, m, -, rfl⟩⟩ := execTick_cases h
  · exact .inl ⟨rfl, readPix_congr rfl⟩
  · exact .inr (flushes_eq_of_flush (u := setPix m s) rfl rfl rfl)

/-- RESET flushes nothing (`70_reset_and_hazards.md` R180). -/
theorem execReset_flushes {d : Byte} (h : execReset d s = .next t) : t.flushes = s.flushes := by
  obtain ⟨m, -, hnext⟩ := execReset_cases d s
  cases hnext.symm.trans h
  rfl

/-- A receiver row flushes nothing and leaves PIX alone, or reports a frame and flushes the buffer it leaves. -/
theorem performRow_flushes {r : RxRow} (h : performRow r s = .next t) :
    (t.flushes = s.flushes ∧ ∀ a, readByte t .pix a = readByte s .pix a) ∨
    (t.flushes = ⟨pixels t, s.cfg.brightness, s.cfg.currentLimit⟩ :: s.flushes ∧
      ∃ p, t.results = .frameReady p :: s.results) := by
  rcases performRow_cases h with ⟨hframe, -⟩ | ⟨b, m, -, -, -, rfl⟩
  · have hflushes : t.flushes = s.flushes := by rw [hframe]
    have hpix : t.pix = s.pix := by rw [hframe]
    exact .inl ⟨hflushes, readPix_congr hpix⟩
  · exact .inr ⟨flushes_eq_of_flush (u := setPix m (emit (.frameReady (payload s)) s)) rfl rfl rfl, _, rfl⟩

/-- Settles O28, by the kinds of instruction that answer. -/
theorem flushOnlyFromFrameOrBlackout : Obligations.FlushOnlyFromFrameOrBlackout := by
  intro i s t hexec
  rcases exec_cases hexec with
    ⟨d, rfl, htick⟩ | ⟨d, rfl, hreset⟩ | ⟨r, hrow, -⟩ | ⟨c, d, -, rfl⟩ | ⟨x, y, -, -, -, rfl⟩
  · rcases execTick_flushes htick with ⟨hflushes, hpix⟩ | hflushes
    · exact .inl ⟨hflushes, .inr hpix⟩
    · exact .inr ⟨hflushes, .inl ⟨d, rfl⟩⟩
  · exact .inl ⟨execReset_flushes hreset, .inl ⟨d, rfl⟩⟩
  · rcases performRow_flushes hrow with ⟨hflushes, hpix⟩ | ⟨hflushes, hframe⟩
    · exact .inl ⟨hflushes, .inr hpix⟩
    · exact .inr ⟨hflushes, .inr hframe⟩
  · exact .inl ⟨rfl, .inr (readPix_congr rfl)⟩
  · exact .inl ⟨rfl, .inr (readPix_congr rfl)⟩

end Sys2Proof.Machine

/-! The Watchdog (`43_watchdog.md`): the elapsed time, what a stale TICK does, once and in a row, and what stamps the
time or ends a blackout. -/

namespace Sys2Proof.Machine

variable {s t : State}

/-! ### The elapsed time -/

/-- Settles O35: reducing the later time modulo `2^TW` first does not change the difference modulo `2^TW`. -/
theorem elapsedIsTrueTimeModuloWidth : Obligations.ElapsedIsTrueTimeModuloWidth := by
  intro tw last e
  have hmod : (((last + e) % 2 ^ tw : Nat) - last : Int) % (2 ^ tw : Nat) = (e % 2 ^ tw : Nat) := by
    rw [Int.natCast_emod, Int.emod_sub_emod, Int.natCast_add, add_sub_cancel_left, ← Int.natCast_emod]
  rw [elapsed, hmod, Int.toNat_natCast]

/-! ### Stale TICKs (`43_watchdog.md` R141, R142) -/

/-- What a stale TICK leaves: a new pixel memory, one flush of the black buffer more and Idle. -/
def blanked (m : List Host.Cell) (s : State) : State :=
  { s with pix := m, flushes := blackFlush s.cfg :: s.flushes, results := .idle :: s.results }

theorem allBlack_blanked {m : List Host.Cell} (h : blackenAll s = .ok (setPix m s)) : allBlack (blanked m s) :=
  allBlack_of_blackenAll h rfl rfl

/-- The buffer a blackout flushes is black. -/
theorem emit_idle_flush_blackened {m : List Host.Cell} (h : blackenAll s = .ok (setPix m s)) :
    emit .idle (flush (setPix m s)) = blanked m s := by
  have hflush : flushOf (setPix m s) = blackFlush s.cfg := flushOf_allBlack (allBlack_of_blackenAll h rfl rfl)
  rw [blanked, ← hflush]
  rfl

/-- The answer of a stale TICK. -/
theorem execTick_stale (d : Byte) (hs : s.started = true) (hstale : stale s = true) :
    ∃ m, blackenAll s = .ok (setPix m s) ∧ execTick d s = .next (blanked m s) := by
  obtain ⟨m, hm, hnext⟩ := (execTick_eq d s hs).2 hstale
  exact ⟨m, hm, emit_idle_flush_blackened hm ▸ hnext⟩

/-- Settles O34, by the two cases of a TICK. -/
theorem tickBlanksExactlyWhenStale : Obligations.TickBlanksExactlyWhenStale := by
  refine fun s d hs => ⟨fun hfresh => ?_, fun helapsed => ?_⟩
  · have hstale : stale s = false := Bool.eq_false_iff.mpr fun h => not_lt.mpr hfresh ((stale_iff s).mp h)
    exact (execTick_eq d s hs).1 hstale
  · obtain ⟨m, hm, hnext⟩ := execTick_stale d hs ((stale_iff s).mpr helapsed)
    exact ⟨blanked m s, hnext, allBlack_blanked hm,
      fun a ha => (readByte_blackenAll hm a).trans (if_neg (Nat.not_lt.mpr ha)), fun _ => rfl, rfl⟩

/-- A run of stale TICKs, by induction on their times. A buffer that is black before the run counts as black after
it too, so that the first TICK's blackout is not lost when no other follows. -/
theorem runSteps_staleTicks {times : List Nat} {rest : List Input} (hs : s.started = true)
    (hlegal : legalConfig s.cfg = true) (hp : s.pending = times.map tickEvent ++ rest)
    (hstale : ∀ n ∈ times, elapsed s.cfg.tw (n % 2 ^ s.cfg.tw) s.lastOkMs > s.cfg.t) :
    ∃ t : State, runSteps times.length s = .next t ∧
      t.flushes = List.replicate times.length (blackFlush s.cfg) ++ s.flushes ∧
      (times ≠ [] ∨ allBlack s → allBlack t) ∧
      t = { s with pix := t.pix, flushes := t.flushes, pending := rest, nowMs := t.nowMs,
                   results := List.replicate times.length .idle ++ s.results } := by
  induction times generalizing s with
  | nil =>
    have hrest : s.pending = rest := hp
    exact ⟨s, rfl, rfl, fun h => h.resolve_left (fun hne => hne rfl), by rw [← hrest]; rfl⟩
  | cons now times ih =>
    obtain ⟨hnow, hlater⟩ := List.forall_mem_cons.mp hstale
    obtain ⟨m, hm, hnext⟩ :=
      execTick_stale (s := afterFetch s (times.map tickEvent ++ rest) now) 0 hs (decide_eq_true hnow)
    obtain ⟨t, hrun, hflushes, hblack, hframe⟩ :=
      ih (s := blanked m (afterFetch s (times.map tickEvent ++ rest) now)) hs hlegal rfl hlater
    refine ⟨t, (runSteps_succ_of_next ((step_tick hlegal hp).trans hnext)).trans hrun, ?_,
      fun _ => hblack (.inr (allBlack_blanked hm)), ?_⟩
    · rw [hflushes, List.length_cons, List.replicate_succ', List.append_assoc]
      rfl
    · rw [List.length_cons, List.replicate_succ', List.append_assoc]
      exact hframe

/-- Settles O38: the run of stale TICKs. -/
theorem staleTicksEachBlankAndFlush : Obligations.StaleTicksEachBlankAndFlush := by
  intro s times rest hs hlegal hp hstale
  obtain ⟨t, hrun, hflushes, hblack, hframe⟩ := runSteps_staleTicks hs hlegal hp hstale
  exact ⟨t, hrun, hflushes, fun hne => hblack (.inl hne), hframe⟩

/-! ### The timestamp (`43_watchdog.md` R143) -/

/-- RESET stamps the time. -/
theorem execReset_lastOkMs {d : Byte} (h : execReset d s = .next t) : t.lastOkMs = sampledNow s := by
  obtain ⟨m, -, hnext⟩ := execReset_cases d s
  cases hnext.symm.trans h
  rfl

/-- A receiver row keeps the timestamp, or reports a frame and stamps the time. -/
theorem performRow_lastOkMs {r : RxRow} (h : performRow r s = .next t) :
    t.lastOkMs = s.lastOkMs ∨ (t.lastOkMs = sampledNow s ∧ ∃ p, t.results = .frameReady p :: s.results) := by
  rcases performRow_cases h with ⟨hframe, -⟩ | ⟨b, m, -, -, -, rfl⟩
  · left
    rw [hframe]
  · exact .inr ⟨rfl, _, rfl⟩

/-- Settles O40, by the kinds of instruction that answer. -/
theorem onlyFrameOrResetStampsTheTime : Obligations.OnlyFrameOrResetStampsTheTime := by
  intro i s t hexec
  rcases exec_cases hexec with
    ⟨d, rfl, htick⟩ | ⟨d, rfl, hreset⟩ | ⟨r, hrow, -⟩ | ⟨c, d, -, rfl⟩ | ⟨x, y, -, -, -, rfl⟩
  · exact .inl (execTick_receiverKept htick).lastOkMs
  · exact .inr ⟨execReset_lastOkMs hreset, .inl ⟨d, rfl⟩⟩
  · exact (performRow_lastOkMs hrow).imp_right fun ⟨hstamp, hframe⟩ => ⟨hstamp, .inr hframe⟩
  · exact .inl rfl
  · exact .inl rfl

/-! ### A black display (`43_watchdog.md` R147) -/

/-- The buffer is black after, and nothing or one black buffer has been flushed since. -/
def BlackAfter (s t : State) : Prop :=
  allBlack t ∧ (t.flushes = s.flushes ∨ t.flushes = blackFlush s.cfg :: s.flushes)

/-- What leaves the pixel memory, the configuration and the flushes alone leaves a black display. -/
theorem BlackAfter.of_kept (h : allBlack s) (hpix : t.pix = s.pix) (hcfg : t.cfg = s.cfg)
    (hflushes : t.flushes = s.flushes) : BlackAfter s t :=
  ⟨(allBlack_congr hpix hcfg).mpr h, .inl hflushes⟩

/-- Taking an input changes neither the display nor the flushes. -/
theorem BlackAfter.of_afterFetch {rest : List Input} {now : Nat} (h : BlackAfter (afterFetch s rest now) t) :
    BlackAfter s t := h

theorem execTick_blackAfter {d : Byte} (h : allBlack s) (hexec : execTick d s = .next t) : BlackAfter s t := by
  obtain ⟨-, ⟨-, rfl⟩ | ⟨-, m, hm, rfl⟩⟩ := execTick_cases hexec
  · exact .of_kept h rfl rfl rfl
  · rw [emit_idle_flush_blackened hm]
    exact ⟨allBlack_blanked hm, .inr rfl⟩

/-- RESET blackens the buffer and flushes nothing, whatever it held. -/
theorem execReset_blackAfter {d : Byte} (hexec : execReset d s = .next t) : BlackAfter s t := by
  obtain ⟨m, hm, hnext⟩ := execReset_cases d s
  cases hnext.symm.trans hexec
  exact ⟨allBlack_of_blackenAll hm rfl rfl, .inl rfl⟩

theorem performRow_blackAfter {r : RxRow} (h : allBlack s) (hrow : performRow r s = .next t)
    (hno : ∀ p, t.results ≠ .frameReady p :: s.results) : BlackAfter s t := by
  rcases performRow_cases hrow with ⟨hframe, -⟩ | ⟨b, m, -, -, -, rfl⟩
  · refine .of_kept h ?_ ?_ ?_ <;> rw [hframe]
  · exact absurd rfl (hno _)

theorem exec_blackAfter {i : Instr} (h : allBlack s) (hexec : exec i s = .next t)
    (hno : ∀ p, t.results ≠ .frameReady p :: s.results) : BlackAfter s t := by
  rcases exec_cases hexec with
    ⟨d, -, htick⟩ | ⟨d, -, hreset⟩ | ⟨r, hrow, -⟩ | ⟨c, d, -, rfl⟩ | ⟨x, y, -, -, -, rfl⟩
  · exact execTick_blackAfter h htick
  · exact execReset_blackAfter hreset
  · exact performRow_blackAfter h hrow hno
  · exact .of_kept h rfl rfl rfl
  · exact .of_kept h rfl rfl rfl

/-- A configuration that is taken is the one held, or comes with an empty pixel memory of its own size. -/
theorem configure_blackAfter {c : Config} (h : allBlack s) (hconf : configure c s = .next t) : BlackAfter s t := by
  obtain ⟨-, ⟨-, rfl⟩ | ⟨-, rfl⟩⟩ := configure_cases hconf
  · exact .of_kept h rfl rfl rfl
  · exact ⟨fun _ _ => rfl, .inl rfl⟩

/-- Settles O41, by what a step can do when it answers. -/
theorem displayStaysBlackUntilAFrame : Obligations.DisplayStaysBlackUntilAFrame := by
  intro s t h hstep hno
  have hfetched (rest : List Input) (now : Nat) : allBlack (afterFetch s rest now) := (allBlack_congr rfl rfl).mpr h
  rcases step_cases hstep with ⟨-, rfl⟩ | ⟨c, rest, -, hconf⟩ | ⟨inp, rest, now, i, -, -, -, -, -, -, hexec⟩
  · exact ⟨h, .inl rfl⟩
  · exact (configure_blackAfter (hfetched rest s.nowMs) hconf).of_afterFetch
  · exact (exec_blackAfter (hfetched rest now) hexec hno).of_afterFetch

end Sys2Proof.Machine

/-! What the next input makes of the block (`60_exceptions.md` R160, R168, R169, R175): it is taken, and under the
invariant it is performed or refused and never faults. -/

namespace Sys2Proof.Machine

variable {s t : State} {inp : Input} {rest : List Input}

/-! ### Taking an input -/

/-- Settles O7: with no input pending there is nothing to fetch. -/
theorem stepWithoutInputHoldsTheState : Obligations.StepWithoutInputHoldsTheState := by
  intro s hp
  simp only [step, fetch, hp]

theorem exec_pending {i : Instr} (h : exec i s = .next t) : t.pending = s.pending := by
  rcases exec_cases h with
    ⟨d, -, htick⟩ | ⟨d, -, hreset⟩ | ⟨r, hrow, -⟩ | ⟨c, d, -, rfl⟩ | ⟨x, y, -, -, -, rfl⟩
  · exact (execTick_receiverKept htick).pending
  · obtain ⟨m, -, hnext⟩ := execReset_cases d s
    cases hnext.symm.trans hreset
    rfl
  · rcases performRow_cases hrow with ⟨hframe, -⟩ | ⟨b, m, -, -, -, rfl⟩
    · rw [hframe]
    · rfl
  · rfl
  · rfl

theorem configure_pending {c : Config} (h : configure c s = .next t) : t.pending = s.pending := by
  obtain ⟨-, ⟨-, rfl⟩ | ⟨-, rfl⟩⟩ := configure_cases h <;> rfl

/-- A step that answers has taken the next input and no other. -/
theorem step_pending (hp : s.pending = inp :: rest) (h : step s = .next t) : t.pending = rest := by
  rcases step_cases h with ⟨hnil, -⟩ | ⟨c, rest', hp', hconf⟩ | ⟨inp', rest', now, i, hp', -, -, -, -, -, hexec⟩
  · cases hp.symm.trans hnil
  · cases hp.symm.trans hp'
    exact configure_pending hconf
  · cases hp.symm.trans hp'
    exact exec_pending hexec

/-! ### Performed or refused -/

/-- The outcome of an input that is performed or refused as a flag says; a fault is neither. -/
inductive PerformedIff : Bool → Out → Prop where
  | performed (t : State) : PerformedIff true (.next t)
  | refused (r : Refusal) : PerformedIff false (.refused r)

theorem PerformedIff.of_answers {o : Out} (h : ∃ t, o = .next t) : PerformedIff true o := by
  obtain ⟨t, rfl⟩ := h
  exact .performed t

theorem PerformedIff.next {o : Out} (h : PerformedIff true o) : ∃ t, o = .next t := by
  cases h with
  | performed t => exact ⟨t, rfl⟩

theorem PerformedIff.refusal {o : Out} (h : PerformedIff false o) : ∃ r, o = .refused r := by
  cases h with
  | refused r => exact ⟨r, rfl⟩

theorem PerformedIff.ne_fault {a : Bool} {o : Out} (h : PerformedIff a o) (f : Fault) : o ≠ .fault f := by
  cases h <;> nofun

/-- FEED and TICK are performed exactly after the first RESET, if nothing else stops them there. -/
theorem PerformedIff.afterReset {event : Out} (h : s.started = true → ∃ t, Machine.afterReset s event = .next t) :
    PerformedIff s.started (Machine.afterReset s event) := by
  cases hs : s.started with
  | true => exact .of_answers (h hs)
  | false =>
    rw [Machine.afterReset, hs]
    exact .refused .eventBeforeReset

/-- A FEED of a running block answers under the invariant, which excludes both faults: no receiver state 7, and no
payload index beyond the buffer. -/
theorem BlockInv.execFeed_answers (h : BlockInv s) (b : Byte) (hs : s.started = true) :
    ∃ t, Machine.execFeed b s = .next t := by
  refine Machine.execFeed_answers b hs (fun h7 => ?_) fun h5 => (h.inPayload h5).1
  have hcode := h.rxStateCode
  rw [h7] at hcode
  exact absurd hcode (by decide)

/-! ### The inputs one by one -/

/-- The kind bits alone remain under the mask of the EVT table (`30_encoding.md` R64). -/
theorem evtWord_and_kindMask (k : BitVec 2) (d : Byte) : evtWord k d &&& 0x300 = evtWord k 0 := by
  have hmask : (0x300 : EvtWord) = evtWord (BitVec.allOnes 2) 0#8 := by decide
  rw [hmask, evtWord, evtWord, BitVec.and_append, BitVec.and_allOnes, BitVec.and_zero]
  rfl

/-- Whether an event is admitted depends on its kind and on whether the block runs. -/
theorem admitted_evtWord (s : State) (k : BitVec 2) (d : Byte) (now : Nat) :
    admitted s (.event (evtWord k d) now) = (decide (k ≠ 3) && (s.started || decide (k = 2))) := by
  have hkind : ∀ k : BitVec 2, (evtWord k 0 = 0x300 ↔ k = 3) ∧ (evtWord k 0 = 0x200 ↔ k = 2) := by decide
  simp only [admitted, evtWord_and_kindMask, ne_eq, (hkind k).1, (hkind k).2]

@[simp] theorem admitted_feedWord (s : State) (b : Byte) (now : Nat) :
    admitted s (.event (evtWord 0 b) now) = s.started := by
  simp [admitted_evtWord]

@[simp] theorem admitted_tickWord (s : State) (d : Byte) (now : Nat) :
    admitted s (.event (evtWord 1 d) now) = s.started := by
  simp [admitted_evtWord]

@[simp] theorem admitted_resetWord (s : State) (d : Byte) (now : Nat) :
    admitted s (.event (evtWord 2 d) now) = true := by
  simp [admitted_evtWord]

@[simp] theorem admitted_reservedWord (s : State) (d : Byte) (now : Nat) :
    admitted s (.event (evtWord 3 d) now) = false := by
  simp [admitted_evtWord]

/-- An event, by its kind. -/
theorem BlockInv.performedIff_event (h : BlockInv s) (w : EvtWord) (now : Nat) :
    PerformedIff (admitted s (.event w now)) (exec (decode (.evt w)) s) := by
  obtain ⟨k, d, rfl⟩ := exists_evtWord w
  rcases eventKind_cases k with rfl | rfl | rfl | rfl
  · rw [admitted_feedWord, decode_feedWord]
    exact .afterReset (h.execFeed_answers d)
  · rw [admitted_tickWord, decode_tickWord]
    exact .afterReset (execTick_answers d)
  · obtain ⟨m, -, hnext⟩ := execReset_cases d s
    rw [admitted_resetWord, decode_resetWord]
    exact .of_answers ⟨_, hnext⟩
  · rw [admitted_reservedWord, decode_reservedWord]
    exact .refused .reservedEvent

theorem performedIff_mapPort (s : State) (x y : Nat) :
    PerformedIff (admitted s (.mapPort x y)) (execSerpMap x y s) := by
  rw [admitted, ← Bool.decide_and]
  by_cases hgrid : x < s.cfg.w ∧ y < s.cfg.h
  · rw [decide_eq_true hgrid, execSerpMap, if_pos hgrid]
    exact .performed _
  · rw [decide_eq_false hgrid, execSerpMap, if_neg hgrid]
    exact .refused _

/-- A configuration, by the three checks it has to pass. -/
theorem performedIff_configure (s : State) (c : Config) :
    PerformedIff (admitted s (.configure c)) (configure c s) := by
  cases hlegal : legalConfig c with
  | false =>
    rw [admitted, hlegal, configure_of_illegal hlegal]
    exact .refused _
  | true =>
    by_cases hsame : s.cfg = c
    · simpa [admitted, configure, hlegal, hsame] using PerformedIff.performed s
    · cases hs : s.started with
      | true => simpa [admitted, configure, hlegal, hsame, hs] using PerformedIff.refused .configurationChange
      | false => simpa [admitted, configure, hlegal, hsame, hs] using PerformedIff.performed _

/-- Whether an input is admitted does not depend on the inputs to come or on the time. -/
theorem admitted_afterFetch (s : State) (rest : List Input) (now : Nat) (inp : Input) :
    admitted (afterFetch s rest now) inp = admitted s inp := by
  cases inp <;> rfl

/-! ### A step -/

/-- The next input is performed or refused as `admitted` says: the held configuration is legal, so the step is the
meaning of the input. -/
theorem BlockInv.performedIff_step (h : BlockInv s) (hp : s.pending = inp :: rest) :
    PerformedIff (admitted s inp) (step s) := by
  have hfetched (now : Nat) : BlockInv (Machine.afterFetch s rest now) := h.afterFetch rest now
  cases inp with
  | event w now =>
    rw [step_event hp, underLegalConfig_of_legal (hfetched now).configuration,
      ← admitted_afterFetch s rest now]
    exact (hfetched now).performedIff_event w now
  | crcPort c d =>
    rw [step_crcPort hp, underLegalConfig_of_legal (hfetched s.nowMs).configuration]
    exact .performed _
  | mapPort x y =>
    rw [step_mapPort hp, underLegalConfig_of_legal (hfetched s.nowMs).configuration,
      ← admitted_afterFetch s rest s.nowMs]
    exact performedIff_mapPort _ x y
  | configure c =>
    rw [step_configure hp, ← admitted_afterFetch s rest s.nowMs]
    exact performedIff_configure _ c

/-- Settles O52: the input is performed or refused as `admitted` says, and a step that answers has taken it. -/
theorem admittedInputsArePerformed : Obligations.AdmittedInputsArePerformed := by
  intro s inp rest h hp
  have hstep := h.performedIff_step hp
  refine ⟨fun hadm => ?_, fun hadm => ?_⟩ <;> rw [hadm] at hstep
  · obtain ⟨t, hnext⟩ := hstep.next
    exact ⟨t, hnext, step_pending hp hnext⟩
  · exact hstep.refusal

/-- A block before its first RESET meets the invariant and does not admit a FEED (`70_reset_and_hazards.md` R181). -/
theorem witness_AdmittedInputsArePerformed_beforeReset :
    BlockInv { State.powerOn Config.default with pending := [feedEvent 0xAA 1] } ∧
      admitted { State.powerOn Config.default with pending := [feedEvent 0xAA 1] } (feedEvent 0xAA 1) = false :=
  ⟨.of_header (by decide) (Nat.zero_le _) (Nat.zero_le _) (Memory.wf_nil _ _) (Memory.wf_nil _ _) (Nat.two_pow_pos _),
    by decide⟩

/-! ### A run -/

/-- A step holds the state, performs its input or refuses it. -/
theorem BlockInv.step_ne_fault (h : BlockInv s) (f : Fault) : step s ≠ .fault f := by
  rcases hp : s.pending with _ | ⟨inp, rest⟩
  · rw [stepWithoutInputHoldsTheState s hp]
    nofun
  · exact (h.performedIff_step hp).ne_fault f

/-- A run keeps clear of faults if an invariant of the steps excludes them from every step. -/
theorem runSteps_ne_fault {P : State → Prop} {f : Fault} (hkeep : ∀ s t, P s → step s = .next t → P t)
    (hsafe : ∀ s, P s → step s ≠ .fault f) (n : Nat) (h : P s) : runSteps n s ≠ .fault f := by
  induction n generalizing s with
  | zero => nofun
  | succ n ih =>
    rw [runSteps_succ]
    cases hstep : step s with
    | next s' => exact ih (hkeep s s' h hstep)
    | fault g => exact fun hg => hsafe s h (hstep.trans hg)
    | refused r => nofun

/-- Settles O51: the invariant is kept by every step and excludes a fault from it. -/
theorem noRunFaults : Obligations.NoRunFaults :=
  fun n _ f h => runSteps_ne_fault everyStepKeepsTheInvariant (fun _ hs => hs.step_ne_fault f) n h

end Sys2Proof.Machine

/-! RESET and the hazards (`70_reset_and_hazards.md`): what RESET leaves and what it starts, the configuration of a
running block, a repeated SYNC1, the two hazards of the clock, and the race of a TICK and a frame. -/

namespace Sys2Proof.Machine

variable {s t u : State} {rest : List Input}

/-! ### Before and after RESET (`70_reset_and_hazards.md` R180, R181) -/

theorem afterReset_of_not_started (hs : s.started = false) (event : Out) :
    afterReset s event = .refused .eventBeforeReset := if_neg (by simp [hs])

theorem execReset_started {d : Byte} (h : execReset d s = .next t) : t.started = true := by
  obtain ⟨m, -, hnext⟩ := execReset_cases d s
  cases hnext.symm.trans h
  rfl

/-- Settles O44: FEED and TICK are performed behind the check that RESET has been. -/
theorem eventsBeforeResetAreRefused : Obligations.EventsBeforeResetAreRefused :=
  ⟨fun _ _ _ hs => ⟨afterReset_of_not_started hs _, afterReset_of_not_started hs _⟩,
    fun _ _ d h => execReset_started (d := d) h⟩

/-- Settles O43: the one part of RESET that is a loop is the blackening, which reaches every slot and no byte from `L`
on. -/
theorem resetEventRestoresTheBlock : Obligations.ResetEventRestoresTheBlock := by
  intro s d
  obtain ⟨m, hm, hnext⟩ := execReset_cases d s
  have hblack := allBlack_of_blackenAll (t := setPix m s) hm rfl rfl
  exact ⟨_, hnext, rfl, rfl, hblack, fun a ha => (readByte_blackenAll hm a).trans (if_neg (Nat.not_lt.mpr ha)), rfl,
    rfl, rfl, rfl, rfl, rfl, rfl, rfl⟩

/-! ### A running block (`70_reset_and_hazards.md` R186) -/

/-- The configuration is as before, and a block that was running still is. -/
structure RunningKept (s t : State) : Prop where
  cfg : t.cfg = s.cfg
  started : s.started = true → t.started = true

theorem execReset_runningKept {d : Byte} (h : execReset d s = .next t) : RunningKept s t := by
  obtain ⟨m, -, hnext⟩ := execReset_cases d s
  cases hnext.symm.trans h
  exact ⟨rfl, fun _ => rfl⟩

theorem performRow_runningKept {r : RxRow} (h : performRow r s = .next t) : RunningKept s t := by
  rcases performRow_cases h with ⟨hframe, -⟩ | ⟨b, m, -, -, -, rfl⟩
  · rw [hframe]
    exact ⟨rfl, id⟩
  · exact ⟨rfl, id⟩

theorem exec_runningKept {i : Instr} (h : exec i s = .next t) : RunningKept s t := by
  rcases exec_cases h with
    ⟨d, -, htick⟩ | ⟨d, -, hreset⟩ | ⟨r, hrow, -⟩ | ⟨c, d, -, rfl⟩ | ⟨x, y, -, -, -, rfl⟩
  · have hkept := execTick_receiverKept htick
    exact ⟨hkept.cfg, hkept.started.trans⟩
  · exact execReset_runningKept hreset
  · exact performRow_runningKept hrow
  · exact ⟨rfl, id⟩
  · exact ⟨rfl, id⟩

/-- The only configuration a running block takes is the one it has. -/
theorem configure_of_started {c : Config} (hs : s.started = true) (h : configure c s = .next t) : t = s := by
  obtain ⟨-, ⟨-, ht⟩ | ⟨hstopped, -⟩⟩ := configure_cases h
  · exact ht
  · rw [hs] at hstopped
    cases hstopped

theorem configure_of_change {c : Config} (hs : s.started = true) (hlegal : legalConfig c = true) (hne : c ≠ s.cfg) :
    configure c s = .refused .configurationChange := by
  rw [configure, if_neg (by simp [hlegal]), if_neg hne.symm, if_pos hs]

/-- Settles O8, by what a step can do when it answers. -/
theorem configurationFixedWhileRunning : Obligations.ConfigurationFixedWhileRunning := by
  refine ⟨fun s t hs hstep => ?_, fun s c rest hs hp hlegal hne => ?_⟩
  · rcases step_cases hstep with ⟨-, rfl⟩ | ⟨c, rest, -, hconf⟩ | ⟨inp, rest, now, i, -, -, -, -, -, -, hexec⟩
    · exact ⟨rfl, hs⟩
    · cases configure_of_started (s := afterFetch s rest s.nowMs) hs hconf
      exact ⟨rfl, hs⟩
    · have hkept := exec_runningKept hexec
      exact ⟨hkept.cfg, hkept.started hs⟩
  · rw [step_configure hp]
    exact configure_of_change (s := afterFetch s rest s.nowMs) hs hlegal hne

/-! ### A repeated SYNC1 (`70_reset_and_hazards.md` R187) -/

theorem execFeed_sync1Miss {b : Byte} (hs : s.started = true) (hrx : s.rxState = 0) (hb : b ≠ sync1) :
    execFeed b s = execRxSync1Miss b s := by
  rw [execFeed_sync1 b hs hrx, if_neg hb]

theorem execFeed_sync2Miss {b : Byte} (hs : s.started = true) (hrx : s.rxState = 1) (hb : b ≠ sync2) :
    execFeed b s = execRxSync2Miss b s := by
  rw [execFeed_sync2 b hs hrx, if_neg hb]

/-- Settles O20: the second AA is not the SYNC2 the receiver waits for, and is not looked at again as a SYNC1, so the
55 finds it hunting for SYNC1. -/
theorem repeatedSync1IsNotRecognised : Obligations.RepeatedSync1IsNotRecognised := by
  intro s t1 t2 t3 rest hs hl hrx hp
  calc runSteps 3 s
    _ = runSteps 2 (inHeader s 1 1 s.frameId s.declaredLength t1 (feedsAt [0xAA, 0x55] [t2, t3] ++ rest)) :=
      runSteps_feed 2 hl hp (execFeed_sync1Hit hs hrx)
    _ = runSteps 1 (inHeader s 2 0 s.frameId s.declaredLength t2 (feedEvent 0x55 t3 :: rest)) :=
      runSteps_feed 1 hl rfl (execFeed_sync2Miss hs rfl (by decide))
    _ = .next (inHeader s 3 0 s.frameId s.declaredLength t3 rest) :=
      runSteps_feed 0 hl rfl (execFeed_sync1Miss hs rfl (by decide))
    _ = .next { s with pending := rest, nowMs := t3, results := .idle :: .idle :: .idle :: s.results } := by
      rw [inHeader, ← hrx]
      rfl

/-! ### The clock (`70_reset_and_hazards.md` R182, R184, R191) -/

/-- Staleness by any time `e` that, modulo `2^TW`, has passed since the timestamp. -/
theorem stale_iff_of_sampledNow {e : Nat} (h : sampledNow s = (s.lastOkMs + e) % 2 ^ s.cfg.tw) :
    stale s = true ↔ s.cfg.t < e % 2 ^ s.cfg.tw := by
  rw [stale, h, elapsedIsTrueTimeModuloWidth, decide_eq_true_iff]

/-- Settles O36: of the outage only what exceeds `2^TW` is seen, and that is at most `T`. -/
theorem timeWrapHidesAnOutage : Obligations.TimeWrapHidesAnOutage := by
  intro s d e hs ht hnow hlow hhigh
  have hseen : e % 2 ^ s.cfg.tw = e - 2 ^ s.cfg.tw := by
    rw [Nat.mod_eq_sub_mod hlow, Nat.mod_eq_of_lt (by omega)]
  have hfresh : stale s = false := by
    rw [← Bool.not_eq_true, stale_iff_of_sampledNow (by rw [sampledNow, hnow]), hseen]
    omega
  exact (execTick_eq d s hs).1 hfresh

/-- Settles O37: a step back by some time is, modulo `2^TW`, a step forward by what is left of `2^TW`. -/
theorem backwardClockBlanks : Obligations.BackwardClockBlanks := by
  intro s d hs hback hlast hsmall
  have hforward : sampledNow s = (s.lastOkMs + (2 ^ s.cfg.tw - (s.lastOkMs - s.nowMs))) % 2 ^ s.cfg.tw := by
    rw [show s.lastOkMs + (2 ^ s.cfg.tw - (s.lastOkMs - s.nowMs)) = 2 ^ s.cfg.tw + s.nowMs by omega,
      Nat.add_mod_left, sampledNow]
  have hstale : stale s = true := by
    rw [stale_iff_of_sampledNow hforward, Nat.mod_eq_of_lt (by omega)]
    omega
  obtain ⟨m, hm, hnext⟩ := execTick_stale d hs hstale
  exact ⟨blanked m s, hnext, allBlack_blanked hm, rfl⟩

/-- Settles O45: RESET stamps `r`, so `n - r` has passed at the TICK, and the buffer it left black stays so in both
cases of the TICK. -/
theorem watchdogCountsFromReset : Obligations.WatchdogCountsFromReset := by
  intro s r n rest hl hrn hn hp
  obtain ⟨u, hreset, -, -, -, -, hstamp, hflushes, -, hcfg, hpending, -⟩ :=
    resetEventRestoresTheBlock (afterFetch s (tickEvent n :: rest) r) 0
  replace hcfg : u.cfg = s.cfg := hcfg
  have hs : u.started = true := execReset_started (d := 0) hreset
  have hblack : allBlack u := (execReset_blackAfter (d := 0) hreset).1
  have hlast : u.lastOkMs = r := hstamp.trans (Nat.mod_eq_of_lt (Nat.lt_of_le_of_lt hrn hn))
  have hstale : stale (afterFetch u rest n) = true ↔ s.cfg.t < n - r := by
    have hsampled : sampledNow (afterFetch u rest n) = (u.lastOkMs + (n - r)) % 2 ^ u.cfg.tw := by
      rw [hlast, Nat.add_sub_cancel' hrn]
      rfl
    rw [stale_iff_of_sampledNow hsampled, afterFetch_cfg, hcfg, Nat.mod_eq_of_lt (by omega)]
  obtain ⟨t, htick⟩ := execTick_answers (s := afterFetch u rest n) 0 hs
  have hrun : runSteps 2 s = .next t := by
    rw [runSteps_succ_of_next ((step_reset hl hp).trans hreset), runSteps_one, step_tick (hcfg ▸ hl) hpending, htick]
  have hblackTick : allBlack (afterFetch u rest n) := (allBlack_congr rfl rfl).mpr hblack
  refine ⟨t, hrun, (execTick_blackAfter hblackTick htick).1, fun hle => ?_, fun hlt => ?_⟩
  · have hfresh : stale (afterFetch u rest n) = false := by
      rw [← Bool.not_eq_true, hstale]
      omega
    cases ((execTick_eq 0 (afterFetch u rest n) hs).1 hfresh).symm.trans htick
    exact hflushes
  · obtain ⟨m, -, hnext⟩ := execTick_stale (s := afterFetch u rest n) 0 hs (hstale.mpr hlt)
    cases hnext.symm.trans htick
    exact congrArg₂ List.cons (congrArg blackFlush hcfg) hflushes

/-! ### The race of a TICK and a frame (`70_reset_and_hazards.md` R190) -/

/-- What an accepted frame leaves: every cell's triplet at its slot, one flush of that display more, the time of the
event in the timestamp, and a receiver that hunts for SYNC1. -/
structure FrameShown (s t : State) : Prop where
  cfg : t.cfg = s.cfg
  started : t.started = s.started
  pending : t.pending = s.pending
  rxState : t.rxState = 0
  lastOkMs : t.lastOkMs = sampledNow s
  flushes : t.flushes = flushOf t :: s.flushes
  cells : ∀ x y c, x < s.cfg.w → y < s.cfg.h → c < 3 →
    readByte t .pix (3 * serp s.cfg x y + c) = readByte s .pay (3 * (y * s.cfg.w + x) + c)

/-- FEED of the CRC byte of a valid frame. -/
theorem execFeed_frameShown {b : Byte} (hs : s.started = true) (hrx : s.rxState = 6)
    (hmatch : checksum (payload s) = b) : ∃ t, execFeed b s = .next t ∧ FrameShown s t := by
  obtain ⟨haccept, -, hfeed⟩ := crcByteAppliesOrRejects s b
  obtain ⟨t, hnext, hcells, -, -, ht⟩ := haccept hmatch
  have hcfg : t.cfg = s.cfg := by rw [ht]
  have hflushes : t.flushes = flushOf t :: s.flushes := by
    rw [flushOf, hcfg]
    exact congrArg State.flushes ht
  exact ⟨t, (hfeed hs hrx).trans hnext, hcfg, by rw [ht], by rw [ht], by rw [ht], by rw [ht]; rfl, hflushes, hcells⟩

/-- A display is known by the bytes of its cells, since every slot is the slot of a cell. -/
theorem pixels_eq_of_cells (hcfg : t.cfg = u.cfg)
    (h : ∀ x y c, x < u.cfg.w → y < u.cfg.h → c < 3 →
      readByte t .pix (3 * serp u.cfg x y + c) = readByte u .pix (3 * serp u.cfg x y + c)) : pixels t = pixels u := by
  rw [pixels, pixels, hcfg]
  refine List.map_congr_left fun slot hslot => ?_
  obtain ⟨x, y, hx, hy, rfl⟩ := (serpIsABijection u.cfg).2.2 slot (List.mem_range.mp hslot)
  have hchannel := fun c => h x y c hx hy
  rw [readPixel, readPixel, hchannel 1 (by decide), hchannel 2 (by decide)]
  exact congrArg (Rgb.mk · _ _) (hchannel 0 (by decide))

/-- One payload gives one display. -/
theorem FrameShown.pixels_eq {s' : State} (ht : FrameShown s t) (hu : FrameShown s' u) (hcfg : s.cfg = s'.cfg)
    (hpay : ∀ a, readByte s .pay a = readByte s' .pay a) : pixels t = pixels u := by
  refine pixels_eq_of_cells (ht.cfg.trans (hcfg.trans hu.cfg.symm)) ?_
  rw [hu.cfg, ← hcfg]
  intro x y c hx hy hc
  have hshown := hu.cells x y c
  rw [← hcfg] at hshown
  rw [ht.cells x y c hx hy hc, hpay, hshown hx hy hc]

/-- An Idle event that only takes its input leaves the frame shown. -/
theorem FrameShown.emit_idle_afterFetch {rest' : List Input} {now : Nat}
    (h : FrameShown (afterFetch s rest' now) t) (rest : List Input) :
    FrameShown (afterFetch s rest now) (emit .idle (afterFetch t rest now)) :=
  { h with
    pending := rfl
    flushes := by
      rw [flushOf_congr (s := t) (t := emit .idle (afterFetch t rest now)) rfl rfl]
      exact h.flushes }

/-- TICK first: the blackout leaves the payload alone, and the frame is shown after it. -/
theorem runSteps_tick_crc {b : Byte} {now : Nat} (hl : legalConfig s.cfg = true) (hs : s.started = true)
    (hrx : s.rxState = 6) (hmatch : checksum (payload s) = b)
    (hstale : elapsed s.cfg.tw (now % 2 ^ s.cfg.tw) s.lastOkMs > s.cfg.t) :
    ∃ m t, runSteps 2 { s with pending := tickEvent now :: feedEvent b now :: rest } = .next t ∧
      FrameShown (afterFetch (blanked m s) rest now) t := by
  obtain ⟨m, -, htick⟩ :=
    execTick_stale (s := afterFetch s (feedEvent b now :: rest) now) 0 hs (decide_eq_true hstale)
  have hpayload : payload (afterFetch (blanked m s) rest now) = payload s := payload_congr rfl rfl rfl
  obtain ⟨t, hfeed, hshown⟩ := execFeed_frameShown (s := afterFetch (blanked m s) rest now) (b := b) hs hrx
    (hpayload ▸ hmatch)
  refine ⟨m, t, ?_, hshown⟩
  calc runSteps 2 { s with pending := tickEvent now :: feedEvent b now :: rest }
    _ = runSteps 1 (blanked m (afterFetch s (feedEvent b now :: rest) now)) :=
      runSteps_succ_of_next (Eq.trans (step_tick (s := afterFetch s _ s.nowMs) hl rfl) htick)
    _ = .next t := runSteps_feed 0 hl rfl hfeed

/-- FEED first: the frame stamps the time at which the TICK comes, so the TICK does nothing. -/
theorem runSteps_crc_tick {b : Byte} {now : Nat} (hl : legalConfig s.cfg = true) (hs : s.started = true)
    (hrx : s.rxState = 6) (hmatch : checksum (payload s) = b) :
    ∃ u, runSteps 2 { s with pending := feedEvent b now :: tickEvent now :: rest } = .next u ∧
      FrameShown (afterFetch s rest now) u := by
  have hpayload : payload (afterFetch s (tickEvent now :: rest) now) = payload s := payload_congr rfl rfl rfl
  obtain ⟨t, hfeed, hshown⟩ := execFeed_frameShown (s := afterFetch s (tickEvent now :: rest) now) (b := b) hs hrx
    (hpayload ▸ hmatch)
  have hcfg : t.cfg = s.cfg := hshown.cfg
  have hfresh : stale (afterFetch t rest now) = false := by
    have hsampled : sampledNow (afterFetch t rest now) = (t.lastOkMs + 0) % 2 ^ t.cfg.tw := by
      rw [hshown.lastOkMs, hcfg]
      exact (congrArg (now % 2 ^ ·.tw) hcfg).trans (Nat.mod_mod _ _).symm
    rw [← Bool.not_eq_true, stale_iff_of_sampledNow hsampled, Nat.zero_mod]
    exact Nat.not_lt_zero _
  have htick := (execTick_eq 0 (afterFetch t rest now) (hshown.started.trans hs)).1 hfresh
  refine ⟨emit .idle (afterFetch t rest now), ?_, hshown.emit_idle_afterFetch rest⟩
  calc runSteps 2 { s with pending := feedEvent b now :: tickEvent now :: rest }
    _ = runSteps 1 t := runSteps_feed 1 hl rfl hfeed
    _ = .next (emit .idle (afterFetch t rest now)) := by
      rw [runSteps_one, step_tick (hcfg ▸ hl) hshown.pending, htick]

/-- Settles O42: in both orders the frame is shown, and the two states it is applied to have the same payload. -/
theorem raceAdmitsBothOrders : Obligations.RaceAdmitsBothOrders := by
  intro s b now rest hs hl hrx hmatch hstale
  obtain ⟨m, t, hrunTick, ht⟩ := runSteps_tick_crc (rest := rest) hl hs hrx hmatch hstale
  obtain ⟨u, hrunFeed, hu⟩ := runSteps_crc_tick (rest := rest) (now := now) hl hs hrx hmatch
  exact ⟨t, u, hrunTick, hrunFeed, ht.flushes, hu.flushes,
    fun x y c hx hy hc => ⟨ht.cells x y c hx hy hc, hu.cells x y c hx hy hc⟩,
    ht.pixels_eq hu rfl fun _ => rfl, ht.lastOkMs, hu.lastOkMs, ht.rxState, hu.rxState⟩

end Sys2Proof.Machine
